-- ==== Sys2Proof/Word.lean ====
section
/-!
DEFINITION. Bytes and byte sequences (00_scope.md R7, R8): a value of width N is a bit vector of width N, unsigned;
a byte sequence is a list, index 0 the first byte on the wire.
-/

namespace Sys2Proof

/-- A byte is 8 bits (00_scope.md R8). -/
abbrev Byte := BitVec 8

/-- A byte sequence; index 0 is the first byte on the wire (00_scope.md R8). -/
abbrev Bytes := List Byte

end Sys2Proof
end

