-- ==== Sys2Proof/Machine/ByteOrder.lean ====
section
/-!
DEFINITION. The big-endian readers and writers (00_scope.md R8, 20_memory.md R31): the one place where byte order is
decided.
-/

namespace Sys2Proof.Machine

/-- `be16(v)`: the bytes `v[15:8]`, `v[7:0]` (00_scope.md R8). -/
def be16 (v : BitVec 16) : Bytes := [v.extractLsb' 8 8, v.extractLsb' 0 8]

/-- `be64(v)`: the bytes `v[63:56]` .. `v[7:0]` (00_scope.md R8). -/
def be64 (v : BitVec 64) : Bytes :=
  [v.extractLsb' 56 8, v.extractLsb' 48 8, v.extractLsb' 40 8, v.extractLsb' 32 8,
   v.extractLsb' 24 8, v.extractLsb' 16 8, v.extractLsb' 8 8, v.extractLsb' 0 8]

/-- `u8(b, o) = b[o]` (00_scope.md R8). Every reader is used only inside the header of a sequence of at least 24
bytes (41_codec.md R87), so the default for an offset past the end is never read (log 13). -/
def u8 (b : Bytes) (o : Nat) : Byte := b.getD o 0#8

/-- `u16be(b, o)`: the byte at the lower offset is the more significant (00_scope.md R8). -/
def u16be (b : Bytes) (o : Nat) : BitVec 16 := u8 b o ++ u8 b (o + 1)

/-- `u64be(b, o)` (00_scope.md R8). -/
def u64be (b : Bytes) (o : Nat) : BitVec 64 :=
  u8 b o ++ u8 b (o + 1) ++ u8 b (o + 2) ++ u8 b (o + 3)
    ++ u8 b (o + 4) ++ u8 b (o + 5) ++ u8 b (o + 6) ++ u8 b (o + 7)

/-- The `n` bytes of a number, most significant first. -/
def beNat : Nat → Nat → Bytes
  | 0, _ => []
  | n + 1, w => BitVec.ofNat 8 (w >>> (8 * n)) :: beNat n w

/-- The 32 bytes of `nonce_in`: byte k is bits `255 - 8k : 248 - 8k` (44_interfaces.md R136). -/
def nonceBytes (nonce : BitVec 256) : Bytes := beNat 32 nonce.toNat

end Sys2Proof.Machine
end

