-- ==== Sys2Proof/Config.lean ====
section
/-!
DEFINITION. The implementation parameters of 00_scope.md R5: configuration, fixed before reset, not state (10_state.md R11).
-/

namespace Sys2Proof

/-- HEADER_LEN, "fixed header size (24 bytes)" (00_scope.md R5). -/
def headerLen : Nat := 24

/-- The parameters that 00_scope.md R5 leaves OPEN. MAX_FRAME is computed from `maxPayload` (`Params.maxFrame`).
ROLE is client and has no field: no rule of another role exists (42_handshake.md R110). -/
structure Params where
  /-- PROTOCOL_ID, the magic constant (92_eei_decisions.md D1). -/
  protocolId : BitVec 16
  /-- PROTOCOL_VERSION, put into the Hello payload (D12). -/
  protocolVersion : Nat
  /-- MAX_PAYLOAD, the largest payload the buffers hold (D3). -/
  maxPayload : Nat
  /-- SID_MAX, the largest session identifier in bytes (D14). -/
  sidMax : Nat
  /-- HELLO_SER before its length bound: nonce bytes and version to the payload of a Hello (D13); the bound
  is put on by `Params.hello`. -/
  helloSer : Bytes → Nat → Bytes
  /-- ACK_PARSE: payload of a HandshakeResponse to the session identifier, if there is one (D13). -/
  ackParse : Bytes → Option Bytes
deriving Inhabited

/-- The machine's parameters. OPEN in the spec ("the model takes the parameter as an argument", 00_scope.md R5), so
a constant with no body: what is proved about the machine holds for every value of every parameter.
DESIGN CHOICE (log 1), safe. -/
opaque Config.params : Params

end Sys2Proof
end

