-- ==== Sys2Proof/Syntax.lean ====
section
/-!
DEFINITION. Packets and the instructions: one constructor of `Instr` per row of spec/opcode_table.json.
-/

namespace Sys2Proof

/-- The header fields of a frame other than its type, as they stand on the wire (30_encoding.md R50). The type is
fixed by the row, but for the row RESERVED_TYPE. -/
structure Header where
  protocolId     : BitVec 16
  streamId       : BitVec 16
  sequenceNumber : BitVec 64
  timestamp      : BitVec 64
  flags          : Byte
  checksum       : BitVec 16
deriving DecidableEq, Repr

/-- A packet: the record of the eight fields (30_encoding.md R51). -/
structure Packet where
  protocolId     : BitVec 16
  packetType     : Byte
  streamId       : BitVec 16
  sequenceNumber : BitVec 64
  timestamp      : BitVec 64
  flags          : Byte
  checksum       : BitVec 16
  payload        : Bytes
deriving DecidableEq, Repr

/-- The rows of spec/opcode_table.json. A command has no operand field of its own (30_encoding.md R60); a frame row
has the header's fields and the payload (R50, R55, R56). -/
inductive Instr where
  /-- Command 0x01, CRC16 (40_crc.md R76). -/
  | crc16
  /-- Command 0x02, ENCODE (41_codec.md R85). -/
  | encode
  /-- Command 0x03, DECODE (41_codec.md R93). -/
  | decode
  /-- Command 0x10, CONNECT (42_handshake.md R100). -/
  | connect
  /-- Command 0x11, KEEPALIVE (43_liveness.md R115). -/
  | keepalive
  /-- Command 0x12, DISCONNECT (43_liveness.md R119). -/
  | disconnect
  /-- Every other command code (30_encoding.md R61). -/
  | reservedCmd (code : Byte)
  /-- Packet type 0x01, Data (43_liveness.md R121). -/
  | dataPkt (header : Header) (payload : Bytes)
  /-- Packet type 0x03, HandshakeInit (42_handshake.md R100, R110). -/
  | handshakeInitPkt (header : Header) (payload : Bytes)
  /-- Packet type 0x04, HandshakeResponse (42_handshake.md R103). -/
  | handshakeResponsePkt (header : Header) (payload : Bytes)
  /-- Packet type 0x05, Keepalive (43_liveness.md R116). -/
  | keepalivePkt (header : Header) (payload : Bytes)
  /-- Packet type 0x06, Disconnect (43_liveness.md R120). -/
  | disconnectPkt (header : Header) (payload : Bytes)
  /-- Every other packet type (30_encoding.md R56). -/
  | reservedTypePkt (packetType : Byte) (header : Header) (payload : Bytes)
deriving DecidableEq, Repr

end Sys2Proof
end

