-- ==== Sys2Proof/WellFormed.lean ====
section
/-!
DEFINITION. Which terms of `Instr` stand for words of the hardware: a reserved row holds none of the named codes, and
a payload fits the buffers. The magic and the checksum of a frame are no part of this: a frame with a wrong one is a
frame (30_encoding.md R63), and what it does is an error (41_codec.md R89, R90).
-/

namespace Sys2Proof

/-- The command codes that have a row of their own (30_encoding.md R60). -/
def namedCommands : List Byte := [0x01#8, 0x02#8, 0x03#8, 0x10#8, 0x11#8, 0x12#8]

/-- The packet types that have a name (30_encoding.md R55). -/
def namedTypes : List Byte := [0x01#8, 0x03#8, 0x04#8, 0x05#8, 0x06#8]

/-- A payload of a received frame is at most MAX_PAYLOAD bytes long (00_scope.md R5, 44_interfaces.md R138). -/
def payloadFits (p : Params) (payload : Bytes) : Bool := decide (payload.length ≤ p.maxPayload)

/-- The check of one instruction under given parameters. -/
def Instr.wf (p : Params) : Instr → Bool
  | .crc16 => true
  | .encode => true
  | .decode => true
  | .connect => true
  | .keepalive => true
  | .disconnect => true
  | .reservedCmd code => !namedCommands.contains code
  | .dataPkt _ pl => payloadFits p pl
  | .handshakeInitPkt _ pl => payloadFits p pl
  | .handshakeResponsePkt _ pl => payloadFits p pl
  | .keepalivePkt _ pl => payloadFits p pl
  | .disconnectPkt _ pl => payloadFits p pl
  | .reservedTypePkt ty _ pl => !namedTypes.contains ty && payloadFits p pl

/-- Well-formed for this machine's parameters. -/
abbrev Instr.WellFormed (i : Instr) : Prop := i.wf Config.params = true

end Sys2Proof
end

