-- ==== Sys2Proof/Decode.lean ====
section
/-!
DEFINITION. The decoder, total on any bytes, and the encoder. A command is one byte at the command port (30_encoding.md
R60, R61); a frame is the byte sequence of one read at the transport port, of a row by its type byte alone
(30_encoding.md R50, R55, R56, R63). This is the decoder of the opcode table; the codec's function `decode`, with its
checks, is `Machine.decodeFrame`.
-/

namespace Sys2Proof

open Machine

/-- Where the bytes of an instruction arrive: the CMD register, or a read of the transport. -/
inductive Port where
  | cmd
  | rx
deriving DecidableEq, Repr

/-- Why bytes are no instruction. -/
inductive DecodeReject where
  /-- A command code is exactly one byte (30_encoding.md R60); never answered to the machine itself, which hands over
  one byte. -/
  | notOneByte
  /-- A frame has at least 24 bytes (30_encoding.md R50, R58). -/
  | shortFrame
deriving DecidableEq, Repr

/-- The command rows (30_encoding.md R60, R61). -/
def decodeCommand (c : Byte) : Instr :=
  if c = 0x01#8 then .crc16
  else if c = 0x02#8 then .encode
  else if c = 0x03#8 then .decode
  else if c = 0x10#8 then .connect
  else if c = 0x11#8 then .keepalive
  else if c = 0x12#8 then .disconnect
  else .reservedCmd c

/-- The header's fields at the offsets of 30_encoding.md R50. -/
def Header.read (f : Bytes) : Header :=
  { protocolId := u16be f 0, streamId := u16be f 3, sequenceNumber := u64be f 5, timestamp := u64be f 13,
    flags := u8 f 21, checksum := u16be f 22 }

/-- The frame rows, by the type byte (30_encoding.md R55, R56, R63). -/
def frameRow (ty : Byte) (h : Header) (pl : Bytes) : Instr :=
  if ty = 0x01#8 then .dataPkt h pl
  else if ty = 0x03#8 then .handshakeInitPkt h pl
  else if ty = 0x04#8 then .handshakeResponsePkt h pl
  else if ty = 0x05#8 then .keepalivePkt h pl
  else if ty = 0x06#8 then .disconnectPkt h pl
  else .reservedTypePkt ty h pl

/-- A frame of at least 24 bytes is of some row; a shorter sequence is none. -/
def decodeRead (f : Bytes) : Except DecodeReject Instr :=
  if f.length < headerLen then .error .shortFrame
  else .ok (frameRow (u8 f 2) (Header.read f) (f.drop headerLen))

/-- The decoder: total on every byte sequence at either port. -/
def decode : Port → Bytes → Except DecodeReject Instr
  | .cmd, [c] => .ok (decodeCommand c)
  | .cmd, _ => .error .notOneByte
  | .rx, f => decodeRead f

/-- The 24 header bytes in wire order (30_encoding.md R50). -/
def Header.write (ty : Byte) (h : Header) : Bytes :=
  be16 h.protocolId ++ [ty] ++ be16 h.streamId ++ be64 h.sequenceNumber ++ be64 h.timestamp ++ [h.flags]
    ++ be16 h.checksum

/-- A whole frame as it stands on the wire: header, then payload (30_encoding.md R50). -/
def wire (ty : Byte) (h : Header) (pl : Bytes) : Bytes := h.write ty ++ pl

/-- The encoder: the port of an instruction and its bytes there, from the tables of 30_encoding.md R50, R55, R60. -/
def encode : Instr → Port × Bytes
  | .crc16 => (.cmd, [0x01#8])
  | .encode => (.cmd, [0x02#8])
  | .decode => (.cmd, [0x03#8])
  | .connect => (.cmd, [0x10#8])
  | .keepalive => (.cmd, [0x11#8])
  | .disconnect => (.cmd, [0x12#8])
  | .reservedCmd code => (.cmd, [code])
  | .dataPkt h pl => (.rx, wire 0x01#8 h pl)
  | .handshakeInitPkt h pl => (.rx, wire 0x03#8 h pl)
  | .handshakeResponsePkt h pl => (.rx, wire 0x04#8 h pl)
  | .keepalivePkt h pl => (.rx, wire 0x05#8 h pl)
  | .disconnectPkt h pl => (.rx, wire 0x06#8 h pl)
  | .reservedTypePkt ty h pl => (.rx, wire ty h pl)

/-- The port and bytes of a word of the opcode table: a command row has 8 bits, a frame row 192, its header as ONE
big-endian number whose bit 191 is bit 7 of byte 0 (30_encoding.md R63; log 8); no row has another width. A frame's
bits above the row's are its payload, none here. -/
def tableBytes (nbits w : Nat) : Option (Port × Bytes) :=
  if nbits = 8 then some (.cmd, beNat 1 w)
  else if nbits = 192 then some (.rx, beNat 24 w)
  else none

/-- The instruction read from a word of the opcode table. -/
def decodeTableWord (nbits w : Nat) : Option Instr :=
  match tableBytes nbits w with
  | none => none
  | some (port, bytes) =>
    match decode port bytes with
    | .ok i => some i
    | .error _ => none

end Sys2Proof
end

