-- ==== Sys2Proof/Machine/State.lean ====
section
/-!
DEFINITION. The state: the whole list of 10_state.md R10, the two input ports (R24), the two histories (20_memory.md
R43), and what the world around the core will do (`pending`) and has read (`hostReads`). Plain data.
-/

namespace Sys2Proof.Machine

/-- The four states of the session FSM (10_state.md R12). -/
inductive Fsm where
  | idle
  | helloSent
  | established
  | failed
deriving DecidableEq, Repr

/-- The errors of 60_exceptions.md R150; code 0, None, is no error and has no constructor. -/
inductive ErrorCode where
  | tooShort
  | badMagic
  | checksumMismatch
  | unexpectedPacketType
  | connectionClosed
  | ackMalformed
  | payloadTooLong
  | illegalCommand
deriving DecidableEq, Repr

/-- A receive event as the receive history holds it (20_memory.md R43, 44_interfaces.md R138). -/
inductive RxEvent where
  | frame (b : Bytes)
  | closed
deriving DecidableEq, Repr

/-- The host operations of 44_interfaces.md R131. A command is issued by `writeReg` of register 0x08. -/
inductive HostOp where
  | writeReg (n : BitVec 8) (v : BitVec 64)
  | readReg (n : BitVec 8)
  | loadIbuf (b : Bytes)
  | readObuf
  | readSid
deriving DecidableEq, Repr

/-- What a read gave the host. A register is given as a number (10_state.md R22: a model may keep the lengths as
natural numbers). -/
inductive HostValue where
  | reg (v : Nat)
  | bytes (b : Bytes)
deriving DecidableEq, Repr

/-- One thing an agent outside the core does (00_scope.md R6, 44_interfaces.md R130). -/
inductive Event where
  /-- An operation of the host. -/
  | host (op : HostOp)
  /-- What the transport has for one `readSome` call: the bytes it returns, none for closure (44_interfaces.md R138). -/
  | rx (b : Bytes)
  /-- The reset input (70_reset_and_hazards.md R175). -/
  | rst
  /-- The platform drives new values on `clk_now` and `nonce_in` (10_state.md R24). -/
  | ports (clk : BitVec 64) (nonce : BitVec 256)
deriving DecidableEq, Repr

/-- The machine. -/
structure State where
  /-- The session FSM (10_state.md R12). -/
  fsm       : Fsm
  /-- A keepalive waits for its response (R13). -/
  kaPending : Bool
  /-- `x[0]`, OP_TYPE (R14). -/
  opType    : BitVec 8
  /-- `x[1]`, OP_STREAM (R14). -/
  opStream  : BitVec 16
  /-- `x[2]`, OP_SEQ (R14). -/
  opSeq     : BitVec 64
  /-- `x[3]`, OP_FLAGS (R14). -/
  opFlags   : BitVec 8
  /-- IBUF; IBUF_LEN is its length (R15). -/
  ibuf      : List (BitVec 8)
  /-- OBUF; OBUF_LEN is its length (R16). -/
  obuf      : List (BitVec 8)
  /-- R_TYPE (R17). -/
  rType     : BitVec 8
  /-- R_STREAM (R17). -/
  rStream   : BitVec 16
  /-- R_SEQ (R17). -/
  rSeq      : BitVec 64
  /-- R_TS (R17). -/
  rTs       : BitVec 64
  /-- R_FLAGS (R17). -/
  rFlags    : BitVec 8
  /-- R_CSUM (R17). -/
  rCsum     : BitVec 16
  /-- CRC_RESULT (R18). -/
  crcResult : BitVec 16
  /-- OK, the one stored flag (R19). -/
  ok        : Bool
  /-- ERR (R20). -/
  err       : BitVec 8
  /-- SID; SID_LEN is its length (R21). -/
  sid       : List (BitVec 8)
  /-- SID_VALID (R21). -/
  sidValid  : Bool
  /-- The value on the input port `clk_now` (R24); any value: `Event.ports` sets it. -/
  clkNow    : BitVec 64
  /-- The value on the input port `nonce_in` (R24); any value: `Event.ports` sets it. -/
  nonceIn   : BitVec 256
  /-- MODEL'S OWN (log 2): what the agents outside the core will do, oldest first. -/
  pending   : List Event
  /-- The transmit history: the frames given to `tx`, oldest first (20_memory.md R43). -/
  txHist    : List (List (BitVec 8))
  /-- The receive history: the receive events accepted, oldest first (20_memory.md R43). -/
  rxHist    : List RxEvent
  /-- MODEL'S OWN (log 6): what reads gave the host, oldest first. -/
  hostReads : List HostValue
deriving DecidableEq, Repr

/-- Why the machine stops: nothing the spec gives the core does. -/
inductive Fault where
  /-- Raised by a receive event while the core waits whose frame is longer than MAX_FRAME: no `readSome` returns more
  than `maxBytes = MAX_FRAME` bytes (44_interfaces.md R138), so this event does not exist. Safe: the model stops where
  the spec has no step (log 9). -/
  | oversizeRead
deriving DecidableEq, Repr

/-- Why a step has no meaning. -/
inductive Refusal where
  /-- An instruction whose meaning is not written: raised by no arm of `exec`, since every one has its meaning. Safe. -/
  | notModelled (mnemonic : String)
  /-- Raised by the host operation LoadIBUF of more than MAX_FRAME bytes: "a load of a longer sequence is not possible
  (the model gives it no step)" (10_state.md R15, 93_implementation_defined.md U24). Safe (log 10). -/
  | oversizeLoad
deriving DecidableEq, Repr

/-- The machine right after reset: the values of 10_state.md R27, nothing sent, received or read, and nothing pending.
The values on the two input ports and the empty `pending` and `hostReads` are a DESIGN CHOICE (log 3, 4, 6). -/
def State.reset : State :=
  { fsm := .idle, kaPending := false
    opType := 0, opStream := 0, opSeq := 0, opFlags := 0
    ibuf := [], obuf := []
    rType := 0, rStream := 0, rSeq := 0, rTs := 0, rFlags := 0, rCsum := 0
    crcResult := 0, ok := false, err := 0, sid := [], sidValid := false
    clkNow := 0, nonceIn := 0, pending := [], txHist := [], rxHist := [], hostReads := [] }

end Sys2Proof.Machine
end

