-- ==== Sys2Proof/Machine/Flags.lean ====
section
/-!
DEFINITION. The flags: OK and ERR, the derived `busy`, the codes of errors and FSM states, and the STATUS word.
-/

namespace Sys2Proof.Machine

/-- The numbers of 60_exceptions.md R150, as written to ERR. -/
def ErrorCode.code : ErrorCode → BitVec 8
  | .tooShort => 1#8
  | .badMagic => 2#8
  | .checksumMismatch => 3#8
  | .unexpectedPacketType => 4#8
  | .connectionClosed => 5#8
  | .ackMalformed => 6#8
  | .payloadTooLong => 7#8
  | .illegalCommand => 8#8

/-- The numbers of 10_state.md R12. -/
def Fsm.code : Fsm → BitVec 2
  | .idle => 0#2
  | .helloSent => 1#2
  | .established => 2#2
  | .failed => 3#2

/-- `busy = (fsm = HelloSent) or (ka_pending = 1)`, derived and not stored (10_state.md R13). -/
def State.busy (s : State) : Bool := decide (s.fsm = .helloSent) || s.kaPending

/-- What the acceptance of a command does first: OK and ERR are cleared (10_state.md R19, R20, 44_interfaces.md R133). -/
def clearOutcome (s : State) : State := { s with ok := false, err := 0#8 }

/-- A command completes with success: OK is 1 and ERR is 0 (10_state.md R19, R20). -/
def succeed (s : State) : State := { s with ok := true, err := 0#8 }

/-- The STATUS word (10_state.md R22): bits 1:0 FSM, 2 KA_PENDING, 3 BUSY, 4 OK, 5 SID_VALID, 7:6 zero. -/
def statusWord (s : State) : BitVec 8 :=
  0#2 ++ BitVec.ofBool s.sidValid ++ BitVec.ofBool s.ok ++ BitVec.ofBool s.busy ++ BitVec.ofBool s.kaPending
    ++ s.fsm.code

end Sys2Proof.Machine
end

