-- ==== Sys2Proof/Machine/Ops.lean ====
section
/-!
DEFINITION. The operations over the state that several meanings share: the buffers' capacity, command acceptance, the
effect of an error, latching a packet, transmitting, recording a receive event, reset.
-/

namespace Sys2Proof

/-- MAX_FRAME = HEADER_LEN + MAX_PAYLOAD, also the `maxBytes` of `readSome` (00_scope.md R5, 44_interfaces.md R138). -/
def Params.maxFrame (p : Params) : Nat := p.maxPayload + headerLen

/-- HELLO_SER as 00_scope.md R5 types it: its result has at most MAX_PAYLOAD bytes. A function of that type is its own
restriction, so this leaves out none and adds none (log 1). -/
def Params.hello (p : Params) (nonce : BitVec 256) : Bytes :=
  (p.helloSer (Machine.nonceBytes nonce) p.protocolVersion).take p.maxPayload

end Sys2Proof

namespace Sys2Proof.Machine

/-- The form a buffer keeps: a byte sequence not longer than its capacity (10_state.md R15, R16, R21). A list of bytes
is already canonical, so equal contents are equal data; nothing past the length exists to be read (R16). -/
def Memory.wf (capacity : Nat) (b : Bytes) : Bool := decide (b.length ≤ capacity)

/-- The three buffers of a state have that form. -/
def State.buffersWf (p : Params) (s : State) : Bool :=
  Memory.wf p.maxFrame s.ibuf && Memory.wf p.maxFrame s.obuf && Memory.wf p.sidMax s.sid

/-- The issue of a command (44_interfaces.md R132, R133). While busy the write to CMD does not take place: nothing
changes (log 2). Otherwise the command is accepted: OK and ERR are cleared, then its rule is performed. -/
def issue (rule : State → State) (s : State) : Host.Outcome State Fault Refusal :=
  .next (if s.busy then s else rule (clearOutcome s))

/-- THE effect of an error, the analogue of taking an exception (60_exceptions.md R160): OK is 0, ERR is the code; in
HelloSent the FSM goes to Failed; otherwise a keepalive wait ends, and where there is none (command acceptance, ENCODE,
DECODE) neither changes. Nothing is saved and control goes nowhere. -/
def raise (e : ErrorCode) (s : State) : State :=
  { s with
    ok := false, err := e.code
    fsm := if s.fsm = .helloSent then .failed else s.fsm
    kaPending := if s.fsm = .helloSent then s.kaPending else false }

/-- `fsm <- S` (00_scope.md R9). -/
def moveTo (f : Fsm) (s : State) : State := { s with fsm := f }

/-- `ka_pending` set or cleared (10_state.md R13). -/
def setKaPending (b : Bool) (s : State) : State := { s with kaPending := b }

/-- IBUF replaced as a whole (10_state.md R15, 20_memory.md R34). -/
def setIbuf (b : Bytes) (s : State) : State := { s with ibuf := b }

/-- OBUF replaced as a whole (10_state.md R16, 20_memory.md R34). -/
def setObuf (b : Bytes) (s : State) : State := { s with obuf := b }

/-- CRC_RESULT written (10_state.md R18). -/
def setCrcResult (v : BitVec 16) (s : State) : State := { s with crcResult := v }

/-- New values on the input ports (10_state.md R24). -/
def setPorts (clk : BitVec 64) (nonce : BitVec 256) (s : State) : State := { s with clkNow := clk, nonceIn := nonce }

/-- What the outside world has yet to do. -/
def setPending (es : List Event) (s : State) : State := { s with pending := es }

/-- A read gives its value to the host and changes nothing of the core (20_memory.md R35; log 6). -/
def giveHost (v : HostValue) (s : State) : State := { s with hostReads := s.hostReads ++ [v] }

/-- `latch(p)`: the six result registers and OBUF take a decoded packet (41_codec.md R93, 10_state.md R16, R17). -/
def latch (p : Packet) (s : State) : State :=
  { s with
    rType := p.packetType, rStream := p.streamId, rSeq := p.sequenceNumber, rTs := p.timestamp
    rFlags := p.flags, rCsum := p.checksum, obuf := p.payload }

/-- `tx(f)`: the whole frame goes to the transport, which always takes it; the model appends it to the transmit
history (44_interfaces.md R137). -/
def tx (f : Bytes) (s : State) : State := { s with txHist := s.txHist ++ [f] }

/-- An accepted receive event goes into the receive history (20_memory.md R43). -/
def recordRx (e : RxEvent) (s : State) : State := { s with rxHist := s.rxHist ++ [e] }

/-- The reset input: every element of 10_state.md R10 takes its value of R27, from any state (70_reset_and_hazards.md
R175). The ports, the transport's unread data and the host's plans, and what was sent, received and read, stay
(R176, R177, 10_state.md R27). -/
def resetCore (s : State) : State :=
  { State.reset with
    clkNow := s.clkNow, nonceIn := s.nonceIn, pending := s.pending
    txHist := s.txHist, rxHist := s.rxHist, hostReads := s.hostReads }

end Sys2Proof.Machine
end

