-- ==== Sys2Proof/Machine/Operands.lean ====
section
/-!
DEFINITION. The register space (10_state.md R14, R22) and the sampling of the input ports (00_scope.md R9).
-/

namespace Sys2Proof.Machine

/-- The number of CMD (10_state.md R22). -/
def cmdReg : BitVec 8 := 0x08#8

/-- A register write other than to CMD: 0x00 to 0x03 take the value truncated to their width; a write to a read-only
or unknown number is ignored (10_state.md R14, R22, 44_interfaces.md R131). -/
def writeOperand (n : BitVec 8) (v : BitVec 64) (s : State) : State :=
  { s with
    opType := if n = 0x00#8 then v.setWidth 8 else s.opType
    opStream := if n = 0x01#8 then v.setWidth 16 else s.opStream
    opSeq := if n = 0x02#8 then v else s.opSeq
    opFlags := if n = 0x03#8 then v.setWidth 8 else s.opFlags }

/-- `ReadReg(n)`: the content 10_state.md R22 gives; 0 for CMD and for an unknown number. -/
def readReg (s : State) (n : BitVec 8) : Nat :=
  if n = 0x00#8 then s.opType.toNat
  else if n = 0x01#8 then s.opStream.toNat
  else if n = 0x02#8 then s.opSeq.toNat
  else if n = 0x03#8 then s.opFlags.toNat
  else if n = 0x09#8 then (statusWord s).toNat
  else if n = 0x0A#8 then s.err.toNat
  else if n = 0x0B#8 then s.crcResult.toNat
  else if n = 0x0C#8 then s.ibuf.length
  else if n = 0x0D#8 then s.obuf.length
  else if n = 0x10#8 then s.rType.toNat
  else if n = 0x11#8 then s.rStream.toNat
  else if n = 0x12#8 then s.rSeq.toNat
  else if n = 0x13#8 then s.rTs.toNat
  else if n = 0x14#8 then s.rFlags.toNat
  else if n = 0x15#8 then s.rCsum.toNat
  else if n = 0x18#8 then s.sid.length
  else 0

/-- `sample(clk_now)` (00_scope.md R9, 44_interfaces.md R135). -/
def sampleClock (s : State) : BitVec 64 := s.clkNow

/-- `sample(nonce_in)` (00_scope.md R9, 44_interfaces.md R136). -/
def sampleNonce (s : State) : BitVec 256 := s.nonceIn

end Sys2Proof.Machine
end

