-- ==== Sys2Proof/Machine/Crc.lean ====
section
/-!
DEFINITION. The Checksum Engine (40_crc.md) and its command CRC16.
-/

namespace Sys2Proof.Machine

/-- The bit step (40_crc.md R72): bit 15 is tested before the shift. -/
def crcBit (r : BitVec 16) : BitVec 16 :=
  if r.getLsbD 15 then (r <<< 1) ^^^ 0x1021#16 else r <<< 1

/-- `n` bit steps. -/
def crcBits : Nat → BitVec 16 → BitVec 16
  | 0, r => r
  | n + 1, r => crcBits n (crcBit r)

/-- The byte step (40_crc.md R71): the byte is exclusive-ored into bits 15:8, then 8 bit steps. -/
def crcByte (r : BitVec 16) (b : Byte) : BitVec 16 := crcBits 8 (r ^^^ (b.setWidth 16 <<< 8))

/-- The bytes of a sequence run through the register, in order. -/
def crcFrom (r : BitVec 16) (bs : Bytes) : BitVec 16 := bs.foldl crcByte r

/-- `crc16` (40_crc.md R70): from 0xFFFF, no final exclusive-or, no reversal. -/
def crc16 (bs : Bytes) : BitVec 16 := crcFrom 0xFFFF#16 bs

/-- What an accepted CRC16 does (40_crc.md R76). -/
def crcRule (s : State) : State := succeed (setCrcResult (crc16 s.ibuf) s)

/-- CRC16, legal in every state that is not busy (40_crc.md R76, 30_encoding.md R62). -/
def execCrc16 (s : State) : Host.Outcome State Fault Refusal := issue crcRule s

end Sys2Proof.Machine
end

