-- ==== Sys2Proof/Machine/Codec.lean ====
section
/-!
DEFINITION. The Packet Codec (41_codec.md): the functions `encode` and `decode`, and the commands ENCODE and DECODE.
-/

namespace Sys2Proof.Machine

/-- `hdr22` (30_encoding.md R52), with PROTOCOL_ID as an argument. -/
def hdr22 (pid : BitVec 16) (ty : Byte) (sid : BitVec 16) (seq ts : BitVec 64) (fl : Byte) : Bytes :=
  be16 pid ++ [ty] ++ be16 sid ++ be64 seq ++ be64 ts ++ [fl]

/-- `csum`: the checksum of header bytes 0 .. 21 and the payload (30_encoding.md R52, 90_conflicts.md C2). -/
def csum (pid : BitVec 16) (ty : Byte) (sid : BitVec 16) (seq ts : BitVec 64) (fl : Byte) (pl : Bytes) : BitVec 16 :=
  crc16 (hdr22 pid ty sid seq ts fl ++ pl)

/-- `frame` (30_encoding.md R52). -/
def frame (pid : BitVec 16) (ty : Byte) (sid : BitVec 16) (seq ts : BitVec 64) (fl : Byte) (pl : Bytes) : Bytes :=
  hdr22 pid ty sid seq ts fl ++ be16 (csum pid ty sid seq ts fl pl) ++ pl

/-- The function `encode` (41_codec.md R82, R83): the timestamp is the clock value `now`. -/
def encodeFrame (p : Params) (ty : Byte) (sid : BitVec 16) (seq : BitVec 64) (fl : Byte) (pl : Bytes)
    (now : BitVec 64) : Bytes :=
  frame p.protocolId ty sid seq now fl pl

/-- What `decode` returns: a packet or an error (41_codec.md R87). -/
inductive Decoded where
  | ok (p : Packet)
  | err (e : ErrorCode)
deriving DecidableEq, Repr

/-- The fields of a frame of at least 24 bytes, at the offsets of 41_codec.md R80 and R87. -/
def readPacket (f : Bytes) : Packet :=
  { protocolId := u16be f 0, packetType := u8 f 2, streamId := u16be f 3, sequenceNumber := u64be f 5
    timestamp := u64be f 13, flags := u8 f 21, checksum := u16be f 22, payload := f.drop headerLen }

/-- The checksum domain of a frame: bytes 0 .. 21 and the payload (41_codec.md R90). -/
def checksumDomain (f : Bytes) : Bytes := f.take 22 ++ f.drop headerLen

/-- The function `decode` (41_codec.md R87): length, then magic, then checksum, the first that fails decides. -/
def decodeFrame (p : Params) (f : Bytes) : Decoded :=
  if f.length < headerLen then .err .tooShort
  else if u16be f 0 ≠ p.protocolId then .err .badMagic
  else if crc16 (checksumDomain f) ≠ u16be f 22 then .err .checksumMismatch
  else .ok (readPacket f)

/-- The constraints that the opcode table puts beside a frame row: the magic is PROTOCOL_ID and the checksum is that
of the other bytes (30_encoding.md R58, R52). -/
def intact (p : Params) (ty : Byte) (h : Header) (pl : Bytes) : Bool :=
  decide (h.protocolId = p.protocolId)
    && decide (h.checksum = csum h.protocolId ty h.streamId h.sequenceNumber h.timestamp h.flags pl)

/-- What an accepted ENCODE does (41_codec.md R85, R86). -/
def encodeRule (p : Params) (s : State) : State :=
  if p.maxPayload < s.ibuf.length then raise .payloadTooLong s
  else succeed (setObuf (encodeFrame p s.opType s.opStream s.opSeq s.opFlags s.ibuf (sampleClock s)) s)

/-- ENCODE, legal in every state that is not busy (41_codec.md R85, 30_encoding.md R62). -/
def execEncode (s : State) : Host.Outcome State Fault Refusal := issue (encodeRule Config.params) s

/-- What an accepted DECODE does (41_codec.md R93). -/
def decodeRule (p : Params) (s : State) : State :=
  match decodeFrame p s.ibuf with
  | .err e => raise e s
  | .ok pk => succeed (latch pk s)

/-- DECODE, legal in every state that is not busy (41_codec.md R93, 30_encoding.md R62). -/
def execDecode (s : State) : Host.Outcome State Fault Refusal := issue (decodeRule Config.params) s

end Sys2Proof.Machine
end

