-- ==== Sys2Proof/Machine/Handshake.lean ====
section
/-!
DEFINITION. The Session Handshake, client role (42_handshake.md): CONNECT, and what a receive event does in HelloSent.
-/

namespace Sys2Proof.Machine

/-- The frame CONNECT sends: type 0x03, stream 0, sequence 0, flags 0, payload HELLO_SER (42_handshake.md R100). -/
def helloFrame (p : Params) (s : State) : Bytes :=
  encodeFrame p 0x03#8 0#16 0#64 0#8 (p.hello (sampleNonce s)) (sampleClock s)

/-- What an accepted CONNECT does (42_handshake.md R100); outside Idle it is illegal (30_encoding.md R62). -/
def connectRule (p : Params) (s : State) : State :=
  if s.fsm = .idle then moveTo .helloSent (tx (helloFrame p s) s) else raise .illegalCommand s

/-- CONNECT (42_handshake.md R100). -/
def execConnect (s : State) : Host.Outcome State Fault Refusal := issue (connectRule Config.params) s

/-- The handshake completes: the identifier is returned in SID (42_handshake.md R103, 10_state.md R21). -/
def establish (sid : Bytes) (s : State) : State :=
  { s with sid := sid, sidValid := true, ok := true, err := 0#8, fsm := .established }

/-- The last step of R103: the payload of a HandshakeResponse gives the identifier, or the attempt fails with
AckMalformed (42_handshake.md R103, R104 (c)). -/
def acceptAck (p : Params) (payload : Bytes) (s : State) : State :=
  match p.ackParse payload with
  | none => raise .ackMalformed s
  | some sid => if sid.length ≤ p.sidMax then establish sid s else raise .ackMalformed s

/-- The receive event RxFrame(b) in HelloSent (42_handshake.md R103, R104, R107). -/
def helloReply (p : Params) (b : Bytes) (s : State) : State :=
  match decodeFrame p b with
  | .err e => raise e s
  | .ok pk =>
    if pk.packetType = 0x04#8 then acceptAck p pk.payload (latch pk s)
    else raise .unexpectedPacketType (latch pk s)

end Sys2Proof.Machine
end

