-- ==== Sys2Proof/Machine/Liveness.lean ====
section
/-!
DEFINITION. The Liveness Exchange (43_liveness.md): KEEPALIVE, DISCONNECT, and what a receive event does in a keepalive
wait.
-/

namespace Sys2Proof.Machine

/-- The 24-byte frame KEEPALIVE and DISCONNECT send: stream 0, sequence `x[2]`, flags 0, empty payload (43_liveness.md
R115, R119). -/
def controlFrame (p : Params) (ty : Byte) (s : State) : Bytes :=
  encodeFrame p ty 0#16 s.opSeq 0#8 [] (sampleClock s)

/-- What an accepted KEEPALIVE does (43_liveness.md R115); outside Established it is illegal (30_encoding.md R62). -/
def keepaliveRule (p : Params) (s : State) : State :=
  if s.fsm = .established then setKaPending true (tx (controlFrame p 0x05#8 s) s)
  else raise .illegalCommand s

/-- KEEPALIVE (43_liveness.md R115). -/
def execKeepalive (s : State) : Host.Outcome State Fault Refusal := issue (keepaliveRule Config.params) s

/-- What an accepted DISCONNECT does (43_liveness.md R119); outside Established it is illegal (30_encoding.md R62). -/
def disconnectRule (p : Params) (s : State) : State :=
  if s.fsm = .established then succeed (tx (controlFrame p 0x06#8 s) s) else raise .illegalCommand s

/-- DISCONNECT (43_liveness.md R119). -/
def execDisconnect (s : State) : Host.Outcome State Fault Refusal := issue (disconnectRule Config.params) s

/-- The receive event RxFrame(b) in a keepalive wait (43_liveness.md R116, R120, R121). -/
def keepaliveReply (p : Params) (b : Bytes) (s : State) : State :=
  match decodeFrame p b with
  | .err e => raise e s
  | .ok pk =>
    if pk.packetType = 0x05#8 then setKaPending false (succeed (latch pk s))
    else raise .unexpectedPacketType (latch pk s)

end Sys2Proof.Machine
end

