-- ==== Sys2Proof/Machine/Packets.lean ====
section
/-!
DEFINITION. The receive events (44_interfaces.md R138, R139) and with them the meaning of the frame rows: the core runs
a packet by accepting the receive event that carries it (log 7).
-/

namespace Sys2Proof.Machine

/-- An accepted receive event RxFrame(b), dispatched by state (44_interfaces.md R139). -/
def acceptFrame (p : Params) (b : Bytes) (s : State) : State :=
  if s.fsm = .helloSent then helloReply p b (recordRx (.frame b) s) else keepaliveReply p b (recordRx (.frame b) s)

/-- RxFrame(b). While not busy the core does not read: nothing changes (44_interfaces.md R139, 10_state.md R26). A read
of more than MAX_FRAME bytes does not exist (R138; log 9). -/
def receiveFrame (p : Params) (b : Bytes) (s : State) : Host.Outcome State Fault Refusal :=
  if s.busy = false then .next s
  else if p.maxFrame < b.length then .fault .oversizeRead
  else .next (acceptFrame p b s)

/-- RxClosed: ConnectionClosed while a response is awaited (42_handshake.md R102, 43_liveness.md R117); while not busy
the core does not read. -/
def receiveClosed (s : State) : State :=
  if s.busy then raise .connectionClosed (recordRx .closed s) else s

/-- DATA (43_liveness.md R121): an unexpected type wherever the core waits. -/
def execDataPkt (h : Header) (pl : Bytes) (s : State) : Host.Outcome State Fault Refusal :=
  receiveFrame Config.params (wire 0x01#8 h pl) s

/-- HANDSHAKE_INIT (42_handshake.md R110): an unexpected type wherever the core waits. -/
def execHandshakeInitPkt (h : Header) (pl : Bytes) (s : State) : Host.Outcome State Fault Refusal :=
  receiveFrame Config.params (wire 0x03#8 h pl) s

/-- HANDSHAKE_RESPONSE (42_handshake.md R103): the response the handshake waits for. -/
def execHandshakeResponsePkt (h : Header) (pl : Bytes) (s : State) : Host.Outcome State Fault Refusal :=
  receiveFrame Config.params (wire 0x04#8 h pl) s

/-- KEEPALIVE_PKT (43_liveness.md R116): the response a keepalive waits for. -/
def execKeepalivePkt (h : Header) (pl : Bytes) (s : State) : Host.Outcome State Fault Refusal :=
  receiveFrame Config.params (wire 0x05#8 h pl) s

/-- DISCONNECT_PKT (43_liveness.md R120): an unexpected type wherever the core waits. -/
def execDisconnectPkt (h : Header) (pl : Bytes) (s : State) : Host.Outcome State Fault Refusal :=
  receiveFrame Config.params (wire 0x06#8 h pl) s

/-- RESERVED_TYPE (30_encoding.md R56): an unexpected type wherever the core waits. -/
def execReservedTypePkt (ty : Byte) (h : Header) (pl : Bytes) (s : State) : Host.Outcome State Fault Refusal :=
  receiveFrame Config.params (wire ty h pl) s

end Sys2Proof.Machine
end

