-- ==== Sys2Proof/Machine/Reserved.lean ====
section
/-!
DEFINITION. The reserved command codes (30_encoding.md R61).
-/

namespace Sys2Proof.Machine

/-- RESERVED_CMD: accepted when not busy, and completes as IllegalCommand with no other effect, whatever the code
(30_encoding.md R61, 60_exceptions.md R158). -/
def execReservedCmd (_code : Byte) (s : State) : Host.Outcome State Fault Refusal := issue (raise .illegalCommand) s

end Sys2Proof.Machine
end

