-- ==== Sys2Proof/Machine/Dispatch.lean ====
section
/-! DEFINITION. One arm per constructor of Instr. -/

namespace Sys2Proof.Machine

/-- What an instruction does: a command is issued, or a packet is received. -/
def exec (i : Instr) (s : State) : Host.Outcome State Fault Refusal :=
  match i with
  -- the commands (30_encoding.md R60, R61)
  | .crc16 => Sys2Proof.Machine.execCrc16 s
  | .encode => Sys2Proof.Machine.execEncode s
  | .decode => Sys2Proof.Machine.execDecode s
  | .connect => Sys2Proof.Machine.execConnect s
  | .keepalive => Sys2Proof.Machine.execKeepalive s
  | .disconnect => Sys2Proof.Machine.execDisconnect s
  | .reservedCmd code => Sys2Proof.Machine.execReservedCmd code s
  -- the packet types (30_encoding.md R55, R56)
  | .dataPkt h pl => Sys2Proof.Machine.execDataPkt h pl s
  | .handshakeInitPkt h pl => Sys2Proof.Machine.execHandshakeInitPkt h pl s
  | .handshakeResponsePkt h pl => Sys2Proof.Machine.execHandshakeResponsePkt h pl s
  | .keepalivePkt h pl => Sys2Proof.Machine.execKeepalivePkt h pl s
  | .disconnectPkt h pl => Sys2Proof.Machine.execDisconnectPkt h pl s
  | .reservedTypePkt ty h pl => Sys2Proof.Machine.execReservedTypePkt ty h pl s

end Sys2Proof.Machine
end

