-- ==== Sys2Proof/Machine/HostPort.lean ====
section
/-!
DEFINITION. The host port and the choice of the next event: which event of `pending` a step takes, what bytes it
carries for the decoder, and what the events that carry none do (44_interfaces.md R130 to R139).
-/

namespace Sys2Proof.Machine

/-- An event of the host, the one thread that a write to CMD can hold up (44_interfaces.md R132). -/
def Event.ofHost : Event → Bool
  | .host _ => true
  | _ => false

/-- May this event happen now? `held`: an earlier operation of the host is waiting. A receive event needs `busy`
(44_interfaces.md R139); a write to CMD needs not `busy` (R132); every other host operation is always possible (R131),
but after an earlier one of the same host; reset and the ports are always free to act. -/
def Event.enabled (busy held : Bool) : Event → Bool
  | .host (.writeReg n _) => !held && !(busy && n == cmdReg)
  | .host _ => !held
  | .rx _ => busy
  | .rst => true
  | .ports _ _ => true

/-- The first enabled event and the others in their order (log 2): an event that cannot happen yet stays, the unread
bytes of the transport (10_state.md R26) as well as a host operation behind a write to CMD. -/
def pick (busy : Bool) : Bool → List Event → Option (Event × List Event)
  | _, [] => none
  | held, e :: es =>
    if e.enabled busy held then some (e, es)
    else
      match pick busy (held || e.ofHost) es with
      | none => none
      | some (e', rest) => some (e', e :: rest)

/-- The event the next step takes and the state without it. -/
def State.fetch (s : State) : Option (Event × State) :=
  match pick s.busy false s.pending with
  | none => none
  | some (e, rest) => some (e, setPending rest s)

/-- The bytes of an instruction that an event carries: the code written to CMD (44_interfaces.md R131), or the bytes a
read returned (R138). -/
def Event.carried : Event → Option (Port × Bytes)
  | .host (.writeReg n v) => if n = cmdReg then some (.cmd, [v.setWidth 8]) else none
  | .rx (b :: bs) => some (.rx, b :: bs)
  | _ => none

/-- What the bytes of a read do that are no frame of the table: the core gives them to `decode` all the same, which
finds them TooShort (44_interfaces.md R138, 60_exceptions.md R151). The command port hands over one byte, which is
always an instruction. -/
def receiveOther (bytes : Bytes) (s : State) : Host.Outcome State Fault Refusal :=
  receiveFrame Config.params bytes s

/-- LoadIBUF: the buffer is replaced as a whole; a longer sequence than MAX_FRAME has no step (10_state.md R15). -/
def loadIbuf (p : Params) (b : Bytes) (s : State) : Host.Outcome State Fault Refusal :=
  if p.maxFrame < b.length then .refused .oversizeLoad else .next (setIbuf b s)

/-- The events that carry no instruction: the host operations other than command issue (44_interfaces.md R131),
closure (R138), reset (70_reset_and_hazards.md R175) and the input ports (10_state.md R24). -/
def outside (e : Event) (s : State) : Host.Outcome State Fault Refusal :=
  match e with
  | .host (.writeReg n v) => .next (writeOperand n v s)
  | .host (.readReg n) => .next (giveHost (.reg (readReg s n)) s)
  | .host (.loadIbuf b) => loadIbuf Config.params b s
  | .host .readObuf => .next (giveHost (.bytes s.obuf) s)
  | .host .readSid => .next (giveHost (.bytes s.sid) s)
  | .rx _ => .next (receiveClosed s)
  | .rst => .next (resetCore s)
  | .ports clk nonce => .next (setPorts clk nonce s)

/-- A state in which a command can be accepted, for the placing of a command (44_interfaces.md R132): as it is where
it is not busy, else with the wait ended. -/
def readyForCommand (s : State) : State :=
  setKaPending false (if s.fsm = .helloSent then moveTo .idle s else s)

/-- A state in which the core reads, for the placing of a frame (44_interfaces.md R139): as it is where it is busy, else
with the wait of CONNECT begun, or that of KEEPALIVE in Established. -/
def readyForFrame (s : State) : State :=
  if s.busy then s
  else if s.fsm = .established then setKaPending true s
  else moveTo .helloSent s

/-- The instruction's bytes put where the next step takes them. -/
def place (port : Port) (bytes : Bytes) (s : State) : State :=
  match port, bytes with
  | .cmd, [c] =>
    setPending (.host (.writeReg cmdReg (c.setWidth 64)) :: s.pending) (readyForCommand s)
  | .cmd, _ => s
  | .rx, b =>
    setPending (.rx b :: s.pending) (readyForFrame s)

end Sys2Proof.Machine
end

