-- ==== Sys2Proof/Machine/Step.lean ====
section
/-!
DEFINITION. One step (00_scope.md R6): the first enabled event happens, and where it carries an instruction the decoded
instruction is run. Where no event is enabled the core waits, for the host or for the transport (44_interfaces.md R144,
42_handshake.md R101; log 11): the state stays as it is.
-/

namespace Sys2Proof.Machine

/-- One step of the machine. -/
def step (s : State) : Host.Outcome State Fault Refusal :=
  match s.fetch with
  | none => .next s
  | some (e, s') =>
    match e.carried with
    | none => outside e s'
    | some (port, bytes) =>
      match decode port bytes with
      | .ok i => exec i s'
      | .error _ => receiveOther bytes s'

/-- The state with a word of the opcode table placed where the next step takes it (log 4). -/
def State.withFetchWord (s : State) (nbits w : Nat) : State :=
  match tableBytes nbits w with
  | none => s
  | some (port, bytes) => place port bytes s

end Sys2Proof.Machine
end

