-- ==== Sys2Proof/Machine/Payload.lean ====
section
/-!
DEFINITION. The default instances of the two payload functions (42_handshake.md R108, R109) and the test instance of
the parameters (00_scope.md R5). The machine does not use them: its parameters are `Config.params`.
-/

namespace Sys2Proof.Machine

/-- The characters of a text as bytes, ASCII (93_implementation_defined.md K2). -/
def ascii (t : String) : Bytes := t.toList.map fun c => BitVec.ofNat 8 c.toNat

/-- A hexadecimal digit, lowercase (42_handshake.md R108). -/
def hexDigit (n : Nat) : Byte := if n < 10 then BitVec.ofNat 8 (0x30 + n) else BitVec.ofNat 8 (0x57 + n)

/-- Two hexadecimal digits per byte, high nibble first. -/
def hexBytes : Bytes → Bytes
  | [] => []
  | b :: bs => hexDigit (b.toNat / 16) :: hexDigit (b.toNat % 16) :: hexBytes bs

/-- A number in decimal, no sign, no leading zero. The fuel bounds the digits. -/
def decimalFuel : Nat → Nat → Bytes
  | 0, _ => []
  | k + 1, n =>
    if n < 10 then [BitVec.ofNat 8 (0x30 + n)] else decimalFuel k (n / 10) ++ [BitVec.ofNat 8 (0x30 + n % 10)]

/-- A number in decimal; a number has fewer digits than itself plus one. -/
def decimal (n : Nat) : Bytes := decimalFuel (n + 1) n

/-- The default HELLO_SER (42_handshake.md R108). The braces are 0x7B and 0x7D. -/
def helloSerDefault (nonce : Bytes) (version : Nat) : Bytes :=
  [0x7B#8] ++ ascii "\"nonce\": \"" ++ hexBytes nonce ++ ascii "\", \"version\": " ++ decimal version ++ [0x7D#8]

/-- The key of the default ACK_PARSE, with its quotes (42_handshake.md R109). -/
def sessionKey : Bytes :=
  [0x22#8, 0x73#8, 0x65#8, 0x73#8, 0x73#8, 0x69#8, 0x6F#8, 0x6E#8, 0x5F#8, 0x69#8, 0x64#8, 0x22#8]

/-- White space (42_handshake.md R109). -/
def isSpace (b : Byte) : Bool := b == 0x20#8 || b == 0x09#8 || b == 0x0A#8 || b == 0x0D#8

/-- What follows the first place where the key stands. -/
def afterKey : Bytes → Option Bytes
  | [] => none
  | b :: bs => if sessionKey.isPrefixOf (b :: bs) then some ((b :: bs).drop sessionKey.length) else afterKey bs

/-- White space is skipped, then one byte must be `c`; the rest follows it. -/
def expect (c : Byte) (bs : Bytes) : Option Bytes :=
  match bs.dropWhile isSpace with
  | [] => none
  | b :: rest => if b = c then some rest else none

/-- The bytes before the first closing quote. -/
def untilQuote : Bytes → Option Bytes
  | [] => none
  | b :: bs => if b = 0x22#8 then some [] else (untilQuote bs).map (b :: ·)

/-- The default ACK_PARSE (42_handshake.md R109). -/
def ackParseDefault (p : Bytes) : Option Bytes :=
  (afterKey p).bind fun a => (expect 0x3A#8 a).bind fun b => (expect 0x22#8 b).bind untilQuote

/-- The test instance of 00_scope.md R5: what 95_test_vectors.md is computed with; no claim about any peer. -/
def testInstance : Params :=
  { protocolId := 0x4C4C#16, protocolVersion := 1, maxPayload := 4072, sidMax := 64
    helloSer := helloSerDefault, ackParse := ackParseDefault }

end Sys2Proof.Machine
end

