-- ==== Sys2Proof/Safety.lean ====
section
/-!
DEFINITION. What counts as a good state and a safe run, in the terms the statements use.
-/

namespace Sys2Proof.Machine

/-- The invariant of the machine, from the sentences of 10_state.md that speak of every state. -/
structure State.Inv (p : Params) (s : State) : Prop where
  /-- "`ka_pending = 1` implies `fsm = Established`" (10_state.md R13). -/
  wait_established : s.kaPending = true → s.fsm = .established
  /-- "`SID_VALID = 1` if and only if `fsm = Established`" (10_state.md R21). -/
  sid_valid : s.sidValid = true ↔ s.fsm = .established
  /-- Nothing but the completed handshake writes SID (10_state.md R21, 42_handshake.md R104). -/
  sid_empty : s.sidValid = false → s.sid = []
  /-- The buffers hold at most their capacity (10_state.md R15, R16, R21). -/
  buffers : s.buffersWf p = true
  /-- "`OK = 1` implies `ERR = 0`" (10_state.md R20). -/
  outcome : s.ok = true → s.err = 0#8
  /-- "While BUSY = 1, `OK` and `ERR` read 0" (70_reset_and_hazards.md R185). -/
  busy_outcome : s.busy = true → s.ok = false ∧ s.err = 0#8
  /-- "Codes 9 .. 255 are never written" (60_exceptions.md R150). -/
  err_code : s.err.toNat ≤ 8

/-- An event the spec knows: no read and no load is longer than MAX_FRAME (44_interfaces.md R138, 10_state.md R15). -/
def Event.bounded (p : Params) : Event → Bool
  | .rx b => decide (b.length ≤ p.maxFrame)
  | .host (.loadIbuf b) => decide (b.length ≤ p.maxFrame)
  | _ => true

/-- Every event to come is one the spec knows: the states in which a step neither faults nor is refused. -/
def State.Safe (p : Params) (s : State) : Prop := ∀ e ∈ s.pending, e.bounded p = true

/-- Not busy: the core has no step of its own and waits for the host; a run may end here (44_interfaces.md R144). -/
def State.Quiescent (s : State) : Prop := s.busy = false

/-- Busy, and nothing can happen: stuck, not final (44_interfaces.md R144, 95_test_vectors.md P6). -/
def State.Stuck (s : State) : Prop := s.busy = true ∧ s.fetch = none

/-- The write of a command code to CMD (44_interfaces.md R131): what it carries in its low byte is the code. -/
def Event.command (c : Byte) : Event := .host (.writeReg cmdReg (c.setWidth 64))

/-- What an accepted frame leaves in the result registers, OBUF and the receive history when it decodes (41_codec.md
R93, 20_memory.md R43), field by field. -/
def received (ty : Byte) (h : Header) (pl : Bytes) (s : State) : State :=
  { s with
    rType := ty, rStream := h.streamId, rSeq := h.sequenceNumber, rTs := h.timestamp, rFlags := h.flags
    rCsum := h.checksum, obuf := pl, rxHist := s.rxHist ++ [.frame (wire ty h pl)] }

end Sys2Proof.Machine
end

