-- ==== Sys2Proof/Certificates/Slice0/Obligations.lean ====
section
/-!
DEFINITION. The statements about LLP-CORE for the provers. Each docstring names the rule of spec/ it formalises.
A statement about the machine is for its own parameters, `Config.params`, an opaque constant: it holds for every value
of PROTOCOL_ID, PROTOCOL_VERSION, MAX_PAYLOAD, SID_MAX, HELLO_SER and ACK_PARSE.
-/

open Sys2Proof Sys2Proof.Machine

/-! ## Encoding -/

/-- The command codes of 30_encoding.md R60, and every other code is reserved (R61). -/
def Obligations.CommandCodesDecode : Prop :=
  decode .cmd [0x01#8] = .ok .crc16 ∧ decode .cmd [0x02#8] = .ok .encode ∧ decode .cmd [0x03#8] = .ok .decode
  ∧ decode .cmd [0x10#8] = .ok .connect ∧ decode .cmd [0x11#8] = .ok .keepalive
  ∧ decode .cmd [0x12#8] = .ok .disconnect
  ∧ ∀ c : Byte, c ∉ [0x01#8, 0x02#8, 0x03#8, 0x10#8, 0x11#8, 0x12#8] → decode .cmd [c] = .ok (.reservedCmd c)

/-- Frames of 95_test_vectors.md, one for each frame row, with their fields at the offsets of 30_encoding.md R50. -/
def Obligations.FrameWordsDecode : Prop :=
  -- V2 row 1
  decode .rx [0x4C, 0x4C, 0x01, 0x00, 0x07, 0x01, 0x02, 0x03, 0x04, 0x05, 0x06, 0x07, 0x08, 0x00, 0x00, 0x01, 0x8B, 0xCF,
      0xE5, 0x68, 0x00, 0xA5, 0x71, 0xC1, 0x68, 0x65, 0x6C, 0x6C, 0x6F]
    = .ok (.dataPkt ⟨0x4C4C, 0x0007, 0x0102030405060708, 0x0000018BCFE56800, 0xA5, 0x71C1⟩
        [0x68, 0x65, 0x6C, 0x6C, 0x6F])
  -- the header of P1's Hello and the first byte of its payload
  ∧ decode .rx [0x4C, 0x4C, 0x03, 0, 0, 0, 0, 0, 0, 0, 0, 0, 0, 0x00, 0x00, 0x01, 0x8B, 0xCF, 0xE5, 0x68, 0x00, 0x00,
      0x48, 0xBF, 0x7B]
    = .ok (.handshakeInitPkt ⟨0x4C4C, 0, 0, 0x0000018BCFE56800, 0, 0x48BF⟩ [0x7B])
  -- V6, a HandshakeResponse with the payload of two braces
  ∧ decode .rx [0x4C, 0x4C, 0x04, 0, 0, 0, 0, 0, 0, 0, 0, 0, 0, 0x00, 0x00, 0x01, 0x8B, 0xCF, 0xE5, 0x68, 0x07, 0x00,
      0xB5, 0xF0, 0x7B, 0x7D]
    = .ok (.handshakeResponsePkt ⟨0x4C4C, 0, 0, 0x0000018BCFE56807, 0, 0xB5F0⟩ [0x7B, 0x7D])
  -- V6, a Keepalive on stream 9, sequence 77, flags 0x80
  ∧ decode .rx [0x4C, 0x4C, 0x05, 0x00, 0x09, 0, 0, 0, 0, 0, 0, 0, 0x4D, 0, 0, 0, 0, 0, 0, 0, 0x05, 0x80, 0x2B, 0xCE,
      0x78]
    = .ok (.keepalivePkt ⟨0x4C4C, 9, 77, 5, 0x80, 0x2BCE⟩ [0x78])
  -- V2 row 5
  ∧ decode .rx [0x4C, 0x4C, 0x06, 0, 0, 0, 0, 0, 0, 0, 0, 0, 0x02, 0x00, 0x00, 0x01, 0x8B, 0xCF, 0xE5, 0x6F, 0xD0, 0x00,
      0x00, 0xE7]
    = .ok (.disconnectPkt ⟨0x4C4C, 0, 2, 0x0000018BCFE56FD0, 0, 0x00E7⟩ [])
  -- V2 row 4
  ∧ decode .rx [0x4C, 0x4C, 0x02, 0, 0, 0, 0, 0, 0, 0, 0, 0, 0, 0, 0, 0, 0, 0, 0, 0, 0, 0, 0x6B, 0xD1]
    = .ok (.reservedTypePkt 0x02 ⟨0x4C4C, 0, 0, 0, 0, 0x6BD1⟩ [])

/-- Decode and encode agree: every well-formed instruction, with every value of its fields (30_encoding.md R50, R52,
R55, R60). -/
def Obligations.DecodeOfEncodeIsTheInstruction : Prop :=
  ∀ i : Instr, i.WellFormed → decode (encode i).1 (encode i).2 = .ok i

/-- The other direction: bytes that are an instruction are that instruction's only encoding, and it is well-formed
where the bytes fit the buffers (30_encoding.md R50, R56, R61). -/
def Obligations.EncodeOfDecodeIsTheBytes : Prop :=
  ∀ (port : Port) (bs : Bytes) (i : Instr), decode port bs = .ok i →
    encode i = (port, bs) ∧ (bs.length ≤ Config.params.maxFrame → i.WellFormed)

/-! ## Reset, the invariant, and what a step is -/

/-- `State.reset` holds the values of 10_state.md R27, and STATUS reads 0x00. -/
def Obligations.ResetStateHoldsTheSpecsValues : Prop :=
  let s := State.reset
  s.fsm = .idle ∧ s.kaPending = false ∧ s.opType = 0 ∧ s.opStream = 0 ∧ s.opSeq = 0 ∧ s.opFlags = 0
  ∧ s.ibuf = [] ∧ s.obuf = [] ∧ s.rType = 0 ∧ s.rStream = 0 ∧ s.rSeq = 0 ∧ s.rTs = 0 ∧ s.rFlags = 0 ∧ s.rCsum = 0
  ∧ s.crcResult = 0 ∧ s.ok = false ∧ s.err = 0 ∧ s.sid = [] ∧ s.sidValid = false
  ∧ readReg s 0x09#8 = 0 ∧ readReg s 0x0C#8 = 0 ∧ readReg s 0x0D#8 = 0 ∧ readReg s 0x18#8 = 0

/-- The reset input, from any state, busy or not (70_reset_and_hazards.md R175, 10_state.md R27): every element of the
core has its reset value and STATUS reads 0x00. What is not of the core stays: the values on the ports (log 3), the
events to come, the transport's unread bytes among them (10_state.md R26, log 2), and what was sent, received and read
(70_reset_and_hazards.md R176, log 6). -/
def Obligations.ResetInputFromAnyState : Prop :=
  ∀ (s : State) (rest : List Event), s.pending = .rst :: rest →
    let t : State :=
      { fsm := .idle, kaPending := false, opType := 0, opStream := 0, opSeq := 0, opFlags := 0, ibuf := [], obuf := []
        rType := 0, rStream := 0, rSeq := 0, rTs := 0, rFlags := 0, rCsum := 0, crcResult := 0, ok := false, err := 0
        sid := [], sidValid := false, clkNow := s.clkNow, nonceIn := s.nonceIn, pending := rest
        txHist := s.txHist, rxHist := s.rxHist, hostReads := s.hostReads }
    step s = .next t ∧ readReg t 0x09#8 = 0

/-- The invariant holds after reset. -/
def Obligations.InvariantHoldsAtReset : Prop := State.reset.Inv Config.params

/-- Every step keeps the invariant: ka_pending only in Established (10_state.md R13), SID_VALID exactly in Established
and SID empty otherwise (R21), the buffers within their capacity (R15, R16, R21), OK = 1 only with ERR = 0 (R20),
OK = 0 and ERR = 0 while busy (70_reset_and_hazards.md R185), ERR at most 8 (60_exceptions.md R150). -/
def Obligations.EveryStepKeepsTheInvariant : Prop :=
  ∀ s t : State, s.Inv Config.params → step s = .next t → t.Inv Config.params

/-- A step runs the decoded instruction, on the state without the event that carried it: a code written to CMD while
not busy, a read while busy. -/
def Obligations.StepRunsTheDecodedInstruction : Prop :=
  (∀ (s : State) (v : BitVec 64) (rest : List Event), s.busy = false → s.pending = .host (.writeReg 0x08#8 v) :: rest →
    step s = exec (decodeCommand (v.setWidth 8)) { s with pending := rest })
  ∧ (∀ (s : State) (b : Bytes) (rest : List Event) (i : Instr), s.busy = true → s.pending = .rx b :: rest →
    decode .rx b = .ok i → step s = exec i { s with pending := rest })
  ∧ (∀ (s s' : State) (e : Event) (port : Port) (bytes : Bytes) (i : Instr), s.fetch = some (e, s') →
    e.carried = some (port, bytes) → decode port bytes = .ok i →
    step s = exec i s' ∧ s' = { s with pending := s'.pending })

/-- Which event a step takes (20_memory.md R38 (a), (c), 44_interfaces.md R131, R132, R139; log 2). The taken event and
what is left: the events stay in their order, and every event before the taken one could not happen (a receive event
while not busy; a write to CMD while busy, or a host operation behind one). It is taken as if it stood first, so that a
reset or a change of the ports behind an event that cannot happen is no different from one at the head. And a step takes
no event, and leaves the state (log 11), exactly where none can happen. -/
def Obligations.StepTakesTheFirstEnabledEvent : Prop :=
  (∀ (s s' : State) (e : Event), s.fetch = some (e, s') →
    (∃ before after, s.pending = before ++ e :: after ∧ s'.pending = before ++ after
      ∧ (s.busy = false → (∀ b, e ≠ .rx b) ∧ ∀ x ∈ before, ∃ b, x = .rx b)
      ∧ (s.busy = true →
          (∀ v, e ≠ .host (.writeReg 0x08#8 v)) ∧ (∀ x ∈ before, x.ofHost = true)
          ∧ (∀ x rest, before = x :: rest → (∃ v, x = .host (.writeReg 0x08#8 v)) ∧ e.ofHost = false)))
    ∧ step s = step { s with pending := e :: s'.pending })
  ∧ (∀ s : State,
      (s.fetch = none ↔
        if s.busy = true then
          s.pending = [] ∨ ∃ v rest, s.pending = .host (.writeReg 0x08#8 v) :: rest ∧ ∀ e ∈ rest, e.ofHost = true
        else ∀ e ∈ s.pending, ∃ b, e = .rx b)
      ∧ (s.fetch = none → step s = .next s))

/-- An instruction placed where the next step fetches is run by that step, with the core made ready for it (log 4). -/
def Obligations.PlacedInstructionRunsNext : Prop :=
  (∀ (i : Instr) (s : State), i.WellFormed → (encode i).1 = .cmd →
    step (place .cmd (encode i).2 s) = exec i (readyForCommand s) ∧ (readyForCommand s).busy = false)
  ∧ (∀ (i : Instr) (s : State), i.WellFormed → (encode i).1 = .rx →
    step (place .rx (encode i).2 s) = exec i (readyForFrame s) ∧ (readyForFrame s).busy = true)

/-! ## The commands -/

/-- CRC16 (40_crc.md R76): in every state that is not busy, CRC_RESULT is the checksum of IBUF, OK is 1, ERR is 0, and
nothing else changes; of an empty IBUF it is 0xFFFF. -/
def Obligations.Crc16WritesTheChecksumOfIbuf : Prop :=
  ∀ s : State, s.busy = false →
    exec .crc16 s = .next { s with crcResult := crc16 s.ibuf, ok := true, err := 0#8 }
    ∧ (s.ibuf = [] → exec .crc16 s = .next { s with crcResult := 0xFFFF#16, ok := true, err := 0#8 })

/-- ENCODE (41_codec.md R85, R86): the frame of the operand registers, IBUF and the clock goes to OBUF; a payload that
is too long is refused with ERR = 7, and nothing else changes. -/
def Obligations.EncodeWritesTheFrameToObuf : Prop :=
  ∀ s : State, s.busy = false →
    exec .encode s = .next
      (if s.ibuf.length > Config.params.maxPayload then { s with ok := false, err := 7#8 }
       else
        { s with
          obuf := frame Config.params.protocolId s.opType s.opStream s.opSeq s.clkNow s.opFlags s.ibuf
          ok := true, err := 0#8 })
    ∧ (frame Config.params.protocolId s.opType s.opStream s.opSeq s.clkNow s.opFlags s.ibuf).length
        = 24 + s.ibuf.length

/-- DECODE (41_codec.md R93): a frame that decodes is latched with OK = 1; an error sets OK and ERR and nothing else,
and the FSM does not move. The errors are TooShort, BadMagic and ChecksumMismatch, whose codes are 1, 2 and 3
(60_exceptions.md R150 to R153). -/
def Obligations.DecodeLatchesThePacketOfIbuf : Prop :=
  ∀ s : State, s.busy = false →
    exec .decode s = .next
      (match decodeFrame Config.params s.ibuf with
       | .err e => { s with ok := false, err := e.code }
       | .ok p =>
        { s with
          rType := p.packetType, rStream := p.streamId, rSeq := p.sequenceNumber, rTs := p.timestamp
          rFlags := p.flags, rCsum := p.checksum, obuf := p.payload, ok := true, err := 0#8 })
    ∧ (∀ e, decodeFrame Config.params s.ibuf = .err e →
        (e = .tooShort ∧ e.code = 1#8) ∨ (e = .badMagic ∧ e.code = 2#8) ∨ (e = .checksumMismatch ∧ e.code = 3#8))

/-- CONNECT (42_handshake.md R100): from Idle the Hello goes out on stream 0, sequence 0, flags 0, one frame of 24 bytes
and the payload, and the FSM waits in HelloSent; elsewhere it is IllegalCommand. The payload is HELLO_SER of the 32 bytes
of the nonce, byte k being bits 255 - 8k : 248 - 8k of `nonce_in` (44_interfaces.md R136), and of PROTOCOL_VERSION; its
first MAX_PAYLOAD bytes are taken, which is the model's way (log 1) to say the bound that 00_scope.md R5 puts into the
type of HELLO_SER. -/
def Obligations.ConnectSendsTheHello : Prop :=
  ∀ s : State, s.busy = false →
    ∃ nonce payload : Bytes,
      nonce.length = 32 ∧ (∀ k, k < 32 → nonce.getD k 0#8 = s.nonceIn.extractLsb' (248 - 8 * k) 8)
      ∧ payload = (Config.params.helloSer nonce Config.params.protocolVersion).take Config.params.maxPayload
      ∧ exec .connect s = .next
        (if s.fsm = .idle then
          { s with
            txHist := s.txHist ++ [frame Config.params.protocolId 0x03#8 0#16 0#64 s.clkNow 0#8 payload]
            ok := false, err := 0#8, fsm := .helloSent }
         else { s with ok := false, err := 8#8 })
      ∧ (frame Config.params.protocolId 0x03#8 0#16 0#64 s.clkNow 0#8 payload).length = 24 + payload.length

/-- KEEPALIVE (43_liveness.md R115): in Established a 24-byte Keepalive with sequence `x[2]` goes out and the core waits;
elsewhere it is IllegalCommand. -/
def Obligations.KeepaliveSendsAndWaits : Prop :=
  ∀ s : State, s.busy = false →
    exec .keepalive s = .next
      (if s.fsm = .established then
        { s with
          txHist := s.txHist ++ [frame Config.params.protocolId 0x05#8 0#16 s.opSeq s.clkNow 0#8 []]
          ok := false, err := 0#8, kaPending := true }
       else { s with ok := false, err := 8#8 })
    ∧ (frame Config.params.protocolId 0x05#8 0#16 s.opSeq s.clkNow 0#8 []).length = 24

/-- DISCONNECT (43_liveness.md R119): in Established a 24-byte Disconnect with sequence `x[2]` goes out and no state
changes; elsewhere it is IllegalCommand. -/
def Obligations.DisconnectSendsAndForgets : Prop :=
  ∀ s : State, s.busy = false →
    exec .disconnect s = .next
      (if s.fsm = .established then
        { s with
          txHist := s.txHist ++ [frame Config.params.protocolId 0x06#8 0#16 s.opSeq s.clkNow 0#8 []]
          ok := true, err := 0#8 }
       else { s with ok := false, err := 8#8 })
    ∧ (frame Config.params.protocolId 0x06#8 0#16 s.opSeq s.clkNow 0#8 []).length = 24

/-- IllegalCommand (60_exceptions.md R158, 30_encoding.md R61): a reserved code, CONNECT outside Idle, KEEPALIVE and
DISCONNECT outside Established set OK = 0 and ERR = 8 and change nothing else. -/
def Obligations.IllegalCommandSetsOnlyTheOutcome : Prop :=
  ∀ s : State, s.busy = false →
    (∀ c : Byte, c ∉ [0x01#8, 0x02#8, 0x03#8, 0x10#8, 0x11#8, 0x12#8] →
      decodeCommand c = .reservedCmd c ∧ exec (decodeCommand c) s = .next { s with ok := false, err := 8#8 })
    ∧ (∀ c : Byte, exec (.reservedCmd c) s = .next { s with ok := false, err := 8#8 })
    ∧ (s.fsm ≠ .idle → exec .connect s = .next { s with ok := false, err := 8#8 })
    ∧ (s.fsm ≠ .established → exec .keepalive s = .next { s with ok := false, err := 8#8 })
    ∧ (s.fsm ≠ .established → exec .disconnect s = .next { s with ok := false, err := 8#8 })

/-- While busy no command is accepted (44_interfaces.md R132): the write to CMD changes nothing, and it stays pending,
neither dropped nor passed by a later host operation. -/
def Obligations.CommandIsNotAcceptedWhileBusy : Prop :=
  ∀ s : State, s.busy = true →
    (∀ c : Byte, exec (decodeCommand c) s = .next s)
    ∧ (∀ (v : BitVec 64) (rest : List Event), s.pending = .host (.writeReg 0x08#8 v) :: rest →
        (∀ e ∈ rest, e.ofHost = true) → step s = .next s)

/-! ## The receive events -/

/-- RxFrame in HelloSent (42_handshake.md R103, R104), for every non-empty read: a decode error, a wrong type and a
payload without an acceptable identifier end in Failed with their codes, in that order; a HandshakeResponse with one ends
in Established. -/
def Obligations.HelloSentTakesOneFrame : Prop :=
  ∀ (s : State) (b : Bytes) (rest : List Event), s.fsm = .helloSent → s.pending = .rx b :: rest → b ≠ [] →
    b.length ≤ Config.params.maxFrame →
    step s = .next
      (match decodeFrame Config.params b with
       | .err e =>
        { s with pending := rest, rxHist := s.rxHist ++ [.frame b], ok := false, err := e.code, fsm := .failed }
       | .ok p =>
        let l : State :=
          { s with
            pending := rest, rxHist := s.rxHist ++ [.frame b]
            rType := p.packetType, rStream := p.streamId, rSeq := p.sequenceNumber, rTs := p.timestamp
            rFlags := p.flags, rCsum := p.checksum, obuf := p.payload }
        if p.packetType ≠ 0x04#8 then { l with ok := false, err := 4#8, fsm := .failed }
        else
          match Config.params.ackParse p.payload with
          | some i =>
            if i.length ≤ Config.params.sidMax then
              { l with sid := i, sidValid := true, ok := true, err := 0#8, fsm := .established }
            else { l with ok := false, err := 6#8, fsm := .failed }
          | none => { l with ok := false, err := 6#8, fsm := .failed })

/-- RxFrame in a keepalive wait (43_liveness.md R116), for every non-empty read: OK says whether a Keepalive came, ERR
why not; the wait ends, and the FSM does not move. -/
def Obligations.KeepaliveWaitTakesOneFrame : Prop :=
  ∀ (s : State) (b : Bytes) (rest : List Event), s.fsm = .established → s.kaPending = true →
    s.pending = .rx b :: rest → b ≠ [] → b.length ≤ Config.params.maxFrame →
    step s = .next
      (match decodeFrame Config.params b with
       | .err e =>
        { s with pending := rest, rxHist := s.rxHist ++ [.frame b], ok := false, err := e.code, kaPending := false }
       | .ok p =>
        let l : State :=
          { s with
            pending := rest, rxHist := s.rxHist ++ [.frame b]
            rType := p.packetType, rStream := p.streamId, rSeq := p.sequenceNumber, rTs := p.timestamp
            rFlags := p.flags, rCsum := p.checksum, obuf := p.payload, kaPending := false }
        if p.packetType = 0x05#8 then { l with ok := true, err := 0#8 } else { l with ok := false, err := 4#8 })

/-- RxClosed while a response is awaited (42_handshake.md R102, 43_liveness.md R117): ConnectionClosed; in HelloSent the
attempt fails, in a keepalive wait the wait ends. -/
def Obligations.ClosureWhileWaiting : Prop :=
  ∀ (s : State) (rest : List Event), s.pending = .rx [] :: rest →
    (s.fsm = .helloSent → step s = .next
      { s with pending := rest, rxHist := s.rxHist ++ [.closed], ok := false, err := 5#8, fsm := .failed })
    ∧ (s.fsm = .established → s.kaPending = true → step s = .next
      { s with pending := rest, rxHist := s.rxHist ++ [.closed], ok := false, err := 5#8, kaPending := false })

/-- An intact HandshakeResponse in HelloSent (42_handshake.md R103): its fields are latched, and the handshake completes
if ACK_PARSE gives an identifier of at most SID_MAX bytes, whatever its other fields are (R107). -/
def Obligations.HandshakeResponseEndsTheHandshake : Prop :=
  ∀ (h : Header) (pl : Bytes) (s : State), s.fsm = .helloSent → pl.length ≤ Config.params.maxPayload →
    intact Config.params 0x04#8 h pl = true →
    exec (.handshakeResponsePkt h pl) s = .next
      (match Config.params.ackParse pl with
       | some i =>
        if i.length ≤ Config.params.sidMax then
          { received 0x04#8 h pl s with sid := i, sidValid := true, ok := true, err := 0#8, fsm := .established }
        else { received 0x04#8 h pl s with ok := false, err := 6#8, fsm := .failed }
       | none => { received 0x04#8 h pl s with ok := false, err := 6#8, fsm := .failed })

/-- An intact packet of any other type in HelloSent (42_handshake.md R104 (b), 43_liveness.md R120, R121): latched, then
UnexpectedPacketType and Failed. -/
def Obligations.UnexpectedPacketFailsTheHandshake : Prop :=
  ∀ (h : Header) (pl : Bytes) (s : State), s.fsm = .helloSent → pl.length ≤ Config.params.maxPayload →
    (intact Config.params 0x01#8 h pl = true → exec (.dataPkt h pl) s = .next
      { received 0x01#8 h pl s with ok := false, err := 4#8, fsm := .failed })
    ∧ (intact Config.params 0x03#8 h pl = true → exec (.handshakeInitPkt h pl) s = .next
      { received 0x03#8 h pl s with ok := false, err := 4#8, fsm := .failed })
    ∧ (intact Config.params 0x05#8 h pl = true → exec (.keepalivePkt h pl) s = .next
      { received 0x05#8 h pl s with ok := false, err := 4#8, fsm := .failed })
    ∧ (intact Config.params 0x06#8 h pl = true → exec (.disconnectPkt h pl) s = .next
      { received 0x06#8 h pl s with ok := false, err := 4#8, fsm := .failed })
    ∧ (∀ ty : Byte, ty ∉ [0x01#8, 0x03#8, 0x04#8, 0x05#8, 0x06#8] → intact Config.params ty h pl = true →
        exec (.reservedTypePkt ty h pl) s = .next
          { received ty h pl s with ok := false, err := 4#8, fsm := .failed })

/-- An intact Keepalive in a keepalive wait (43_liveness.md R116): OK = 1, whatever its other fields and payload are. -/
def Obligations.KeepalivePacketAnswersTheKeepalive : Prop :=
  ∀ (h : Header) (pl : Bytes) (s : State), s.fsm ≠ .helloSent → s.kaPending = true →
    pl.length ≤ Config.params.maxPayload → intact Config.params 0x05#8 h pl = true →
    exec (.keepalivePkt h pl) s = .next
      { received 0x05#8 h pl s with ok := true, err := 0#8, kaPending := false }

/-- An intact packet of any other type in a keepalive wait (43_liveness.md R116, R120, R121): latched, a liveness failure
with UnexpectedPacketType; the FSM does not move. -/
def Obligations.UnexpectedPacketIsALivenessFailure : Prop :=
  ∀ (h : Header) (pl : Bytes) (s : State), s.fsm ≠ .helloSent → s.kaPending = true →
    pl.length ≤ Config.params.maxPayload →
    (intact Config.params 0x01#8 h pl = true → exec (.dataPkt h pl) s = .next
      { received 0x01#8 h pl s with ok := false, err := 4#8, kaPending := false })
    ∧ (intact Config.params 0x03#8 h pl = true → exec (.handshakeInitPkt h pl) s = .next
      { received 0x03#8 h pl s with ok := false, err := 4#8, kaPending := false })
    ∧ (intact Config.params 0x04#8 h pl = true → exec (.handshakeResponsePkt h pl) s = .next
      { received 0x04#8 h pl s with ok := false, err := 4#8, kaPending := false })
    ∧ (intact Config.params 0x06#8 h pl = true → exec (.disconnectPkt h pl) s = .next
      { received 0x06#8 h pl s with ok := false, err := 4#8, kaPending := false })
    ∧ (∀ ty : Byte, ty ∉ [0x01#8, 0x03#8, 0x04#8, 0x05#8, 0x06#8] → intact Config.params ty h pl = true →
        exec (.reservedTypePkt ty h pl) s = .next
          { received ty h pl s with ok := false, err := 4#8, kaPending := false })

/-- A packet whose magic or checksum is wrong, of any row, while the core waits (42_handshake.md R104 (a), 43_liveness.md
R116, 41_codec.md R89, R90): the result registers and OBUF stay, BadMagic comes before ChecksumMismatch. -/
def Obligations.DamagedPacketLatchesNothing : Prop :=
  ∀ (ty : Byte) (h : Header) (pl : Bytes) (s : State), s.busy = true → pl.length ≤ Config.params.maxPayload →
    intact Config.params ty h pl = false →
    let code : BitVec 8 := if h.protocolId ≠ Config.params.protocolId then 2#8 else 3#8
    exec (frameRow ty h pl) s = .next
      (if s.fsm = .helloSent then
        { s with rxHist := s.rxHist ++ [.frame (wire ty h pl)], ok := false, err := code, fsm := .failed }
       else { s with rxHist := s.rxHist ++ [.frame (wire ty h pl)], ok := false, err := code, kaPending := false })

/-- While not busy the core does not read (44_interfaces.md R139, 10_state.md R26): a packet changes nothing, and what
the transport has stays in it. -/
def Obligations.FrameIsNotReadWhileNotBusy : Prop :=
  ∀ s : State, s.busy = false →
    (∀ (ty : Byte) (h : Header) (pl : Bytes), exec (frameRow ty h pl) s = .next s)
    ∧ ((∀ e ∈ s.pending, ∃ b, e = .rx b) → step s = .next s)

/-! ## The host port -/

/-- WriteReg of any number but CMD (10_state.md R14, 44_interfaces.md R131), busy or not: the four operand registers take
the value truncated to their width, every other number is ignored. -/
def Obligations.OperandWriteTruncates : Prop :=
  ∀ (s : State) (n : BitVec 8) (v : BitVec 64) (rest : List Event), n ≠ 0x08#8 →
    s.pending = .host (.writeReg n v) :: rest →
    step s = .next
      (if n = 0x00#8 then { s with pending := rest, opType := v.extractLsb' 0 8 }
       else if n = 0x01#8 then { s with pending := rest, opStream := v.extractLsb' 0 16 }
       else if n = 0x02#8 then { s with pending := rest, opSeq := v }
       else if n = 0x03#8 then { s with pending := rest, opFlags := v.extractLsb' 0 8 }
       else { s with pending := rest })

/-- LoadIBUF (10_state.md R15), busy or not: IBUF is replaced as a whole; a sequence longer than MAX_FRAME has no step,
which the model says by a refusal (log 10). -/
def Obligations.LoadIbufReplacesTheWhole : Prop :=
  ∀ (s : State) (b : Bytes) (rest : List Event), s.pending = .host (.loadIbuf b) :: rest →
    (b.length ≤ Config.params.maxFrame → step s = .next { s with pending := rest, ibuf := b })
    ∧ (Config.params.maxFrame < b.length → step s = .refused .oversizeLoad)

/-- Reads give their value and have no side effect (20_memory.md R35, 10_state.md R22), busy or not. -/
def Obligations.ReadsHaveNoSideEffect : Prop :=
  ∀ (s : State) (rest : List Event),
    (∀ n, s.pending = .host (.readReg n) :: rest →
      step s = .next { s with pending := rest, hostReads := s.hostReads ++ [.reg (readReg s n)] })
    ∧ (s.pending = .host .readObuf :: rest →
      step s = .next { s with pending := rest, hostReads := s.hostReads ++ [.bytes s.obuf] })
    ∧ (s.pending = .host .readSid :: rest →
      step s = .next { s with pending := rest, hostReads := s.hostReads ++ [.bytes s.sid] })

/-- The register map (10_state.md R22): what a read of each number gives, STATUS by its fields, and 0 for CMD and for
every number that is not in the table. -/
def Obligations.RegisterMapReads : Prop :=
  ∀ s : State,
    readReg s 0x00#8 = s.opType.toNat ∧ readReg s 0x01#8 = s.opStream.toNat ∧ readReg s 0x02#8 = s.opSeq.toNat
    ∧ readReg s 0x03#8 = s.opFlags.toNat
    ∧ readReg s 0x09#8 = s.fsm.code.toNat + 4 * s.kaPending.toNat + 8 * s.busy.toNat + 16 * s.ok.toNat
        + 32 * s.sidValid.toNat
    ∧ readReg s 0x0A#8 = s.err.toNat ∧ readReg s 0x0B#8 = s.crcResult.toNat ∧ readReg s 0x0C#8 = s.ibuf.length
    ∧ readReg s 0x0D#8 = s.obuf.length ∧ readReg s 0x10#8 = s.rType.toNat ∧ readReg s 0x11#8 = s.rStream.toNat
    ∧ readReg s 0x12#8 = s.rSeq.toNat ∧ readReg s 0x13#8 = s.rTs.toNat ∧ readReg s 0x14#8 = s.rFlags.toNat
    ∧ readReg s 0x15#8 = s.rCsum.toNat ∧ readReg s 0x18#8 = s.sid.length
    ∧ ∀ n : BitVec 8, n ∉ [0x00#8, 0x01#8, 0x02#8, 0x03#8, 0x09#8, 0x0A#8, 0x0B#8, 0x0C#8, 0x0D#8, 0x10#8, 0x11#8,
        0x12#8, 0x13#8, 0x14#8, 0x15#8, 0x18#8] → readReg s n = 0

/-- The input ports take any value and change nothing else (10_state.md R24). -/
def Obligations.InputPortsTakeAnyValue : Prop :=
  ∀ (s : State) (clk : BitVec 64) (nonce : BitVec 256) (rest : List Event), s.pending = .ports clk nonce :: rest →
    step s = .next { s with pending := rest, clkNow := clk, nonceIn := nonce }

/-! ## The checksum and the codec as functions -/

/-- Checksums of 95_test_vectors.md V1, the source's vector among them (40_crc.md R70, R74). -/
def Obligations.ChecksumVectors : Prop :=
  crc16 [] = 0xFFFF#16
  ∧ crc16 [0x31, 0x32, 0x33, 0x34, 0x35, 0x36, 0x37, 0x38, 0x39] = 0x29B1#16
  ∧ crc16 [0xFF, 0xFF] = 0x0000#16 ∧ crc16 [0x00, 0x01] = 0x0D2E#16 ∧ crc16 [0x01, 0x00] = 0x2E3E#16
  ∧ crcByte 0x0000#16 0x80#8 = 0x9188#16 ∧ crcByte 0x8000#16 0x00#8 = 0x9188#16

/-- Composition (from 40_crc.md R70; 40_crc.md R75 marks it as its own inference, "[derived: from rule R70]"):
the checksum of `a ++ b` is the byte step folded over `b` from `crc16 a`. -/
def Obligations.ChecksumOfAConcatenation : Prop :=
  ∀ a b : Bytes, crc16 (a ++ b) = b.foldl crcByte (crc16 a)

/-- Burst detection (from 40_crc.md R70, R71, R72; 40_crc.md R77 marks it "from general knowledge,
not in source"): two different sequences of one length that differ only within 16 consecutive bit positions have
different checksums. Position k is bit `7 - k % 8` of byte `k / 8`. -/
def Obligations.ChecksumDetectsBursts : Prop :=
  ∀ (a b : Bytes) (n : Nat), a.length = b.length → a ≠ b →
    (∀ k, k < 8 * a.length →
      (a.getD (k / 8) 0#8).getLsbD (7 - k % 8) ≠ (b.getD (k / 8) 0#8).getLsbD (7 - k % 8) → n ≤ k ∧ k < n + 16) →
    crc16 a ≠ crc16 b

/-- The three errors of `decode`, in their order (41_codec.md R88, R89, R90), with the fields as numbers of their bytes
(00_scope.md R8). -/
def Obligations.DecodeReportsTheFirstError : Prop :=
  ∀ (p : Params) (f : Bytes),
    let magic := (f.getD 0 0#8).toNat * 256 + (f.getD 1 0#8).toNat
    let stored := (f.getD 22 0#8).toNat * 256 + (f.getD 23 0#8).toNat
    let computed := (crc16 (f.take 22 ++ f.drop 24)).toNat
    (decodeFrame p f = .err .tooShort ↔ f.length < 24)
    ∧ (decodeFrame p f = .err .badMagic ↔ 24 ≤ f.length ∧ magic ≠ p.protocolId.toNat)
    ∧ (decodeFrame p f = .err .checksumMismatch ↔ 24 ≤ f.length ∧ magic = p.protocolId.toNat ∧ computed ≠ stored)
    ∧ ((∃ pk, decodeFrame p f = .ok pk) ↔ 24 ≤ f.length ∧ magic = p.protocolId.toNat ∧ computed = stored)

/-- Round trip (from 41_codec.md R82, R87; 41_codec.md R94 marks it as its own inference, "[derived: from rule R82 and
rule R87]"). -/
def Obligations.DecodeOfEncodedFrameIsThePacket : Prop :=
  ∀ (p : Params) (ty : Byte) (sid : BitVec 16) (seq : BitVec 64) (fl : Byte) (pl : Bytes) (now : BitVec 64),
    decodeFrame p (encodeFrame p ty sid seq fl pl now) = .ok
      { protocolId := p.protocolId, packetType := ty, streamId := sid, sequenceNumber := seq, timestamp := now
        flags := fl, checksum := csum p.protocolId ty sid seq now fl pl, payload := pl }

/-- The converse (from 41_codec.md R87 and 30_encoding.md R52; 41_codec.md R96 marks it as its own inference): a frame
that decodes is the frame of its fields, so decode is injective on the frames it accepts. -/
def Obligations.DecodedFrameIsTheFrameOfItsFields : Prop :=
  ∀ (p : Params) (f : Bytes) (pk : Packet), decodeFrame p f = .ok pk →
    f = frame p.protocolId pk.packetType pk.streamId pk.sequenceNumber pk.timestamp pk.flags pk.payload
    ∧ ∀ f', decodeFrame p f' = .ok pk → f' = f

/-- Single-byte mutation (from 41_codec.md R87, R89, R90 and 40_crc.md R70 to R72; 41_codec.md R95 marks it as its own
inference): one byte of a frame that decodes is changed; at offsets 0 and 1 the error is BadMagic (90_conflicts.md C3),
elsewhere ChecksumMismatch. -/
def Obligations.SingleByteMutationIsDetected : Prop :=
  ∀ (p : Params) (f : Bytes) (pk : Packet) (i : Nat) (v : Byte), decodeFrame p f = .ok pk → i < f.length →
    f.getD i 0#8 ≠ v →
    decodeFrame p (f.set i v) = .err (if i < 2 then .badMagic else .checksumMismatch)

/-! ## Rules about every step -/

/-- The FSM and ka_pending change as the table of 10_state.md R25 says, and every other step leaves them as they were:
row by row, by the event that the step takes. -/
def Obligations.FsmMovesOnlyAsTheTableSays : Prop :=
  ∀ s t : State, step s = .next t →
    match s.fetch with
    | some (.rst, _) => t.fsm = .idle ∧ t.kaPending = false
    | some (.host (.writeReg n v), _) =>
      if n = 0x08#8 ∧ v.setWidth 8 = 0x10#8 ∧ s.fsm = .idle then t.fsm = .helloSent ∧ t.kaPending = s.kaPending
      else if n = 0x08#8 ∧ v.setWidth 8 = 0x11#8 ∧ s.fsm = .established then
        s.kaPending = false ∧ t.fsm = .established ∧ t.kaPending = true
      else t.fsm = s.fsm ∧ t.kaPending = s.kaPending
    | some (.rx b, _) =>
      if s.fsm = .helloSent then
        ((∃ pk i, decodeFrame Config.params b = .ok pk ∧ pk.packetType = 0x04#8
            ∧ Config.params.ackParse pk.payload = some i ∧ i.length ≤ Config.params.sidMax) → t.fsm = .established)
        ∧ ((¬ ∃ pk i, decodeFrame Config.params b = .ok pk ∧ pk.packetType = 0x04#8
            ∧ Config.params.ackParse pk.payload = some i ∧ i.length ≤ Config.params.sidMax) → t.fsm = .failed)
        ∧ t.kaPending = s.kaPending
      else s.kaPending = true ∧ t.fsm = s.fsm ∧ t.kaPending = false
    | _ => t.fsm = s.fsm ∧ t.kaPending = s.kaPending

/-- Established and Failed have no exit but reset (42_handshake.md R105, R106). -/
def Obligations.EstablishedAndFailedLeftOnlyByReset : Prop :=
  ∀ s t : State, step s = .next t → (s.fsm = .established ∨ s.fsm = .failed) → t.fsm ≠ s.fsm →
    ∃ s', s.fetch = some (.rst, s') ∧ t.fsm = .idle

/-- `tx` is called exactly once by each of CONNECT, KEEPALIVE and DISCONNECT when legal, and by nothing else
(44_interfaces.md R137). -/
def Obligations.OnlyThreeCommandsTransmit : Prop :=
  ∀ s t : State, step s = .next t →
    ((∃ f, t.txHist = s.txHist ++ [f]) ↔
      ∃ (v : BitVec 64) (s' : State), s.fetch = some (.host (.writeReg 0x08#8 v), s')
        ∧ ((v.setWidth 8 = 0x10#8 ∧ s.fsm = .idle) ∨ (v.setWidth 8 = 0x11#8 ∧ s.fsm = .established)
            ∨ (v.setWidth 8 = 0x12#8 ∧ s.fsm = .established)))
    ∧ ((∃ f, t.txHist = s.txHist ++ [f]) ∨ t.txHist = s.txHist)

/-- CRC_RESULT is written by CRC16 and by reset, and by nothing else (10_state.md R18, R27). -/
def Obligations.CrcResultWrittenOnlyByCrc16 : Prop :=
  ∀ s t : State, step s = .next t →
    t.crcResult =
      match s.fetch with
      | some (.rst, _) => 0#16
      | some (.host (.writeReg n v), _) =>
        if n = 0x08#8 ∧ v.setWidth 8 = 0x01#8 then crc16 s.ibuf else s.crcResult
      | _ => s.crcResult

/-- The result registers are written by every successful decode, of IBUF by DECODE and of a received frame, together and
with OBUF, by reset, and by nothing else; a failed decode leaves them (10_state.md R17, R27). -/
def Obligations.ResultRegistersWrittenOnlyByDecodes : Prop :=
  ∀ s t : State, step s = .next t →
    let decoded : Option Bytes :=
      match s.fetch with
      | some (.host (.writeReg n v), _) => if n = 0x08#8 ∧ v.setWidth 8 = 0x03#8 then some s.ibuf else none
      | some (.rx b, _) => some b
      | _ => none
    match decoded.map (decodeFrame Config.params) with
    | some (.ok pk) =>
      t.rType = pk.packetType ∧ t.rStream = pk.streamId ∧ t.rSeq = pk.sequenceNumber ∧ t.rTs = pk.timestamp
      ∧ t.rFlags = pk.flags ∧ t.rCsum = pk.checksum ∧ t.obuf = pk.payload
    | _ =>
      if s.fetch.map Prod.fst = some .rst then
        t.rType = 0 ∧ t.rStream = 0 ∧ t.rSeq = 0 ∧ t.rTs = 0 ∧ t.rFlags = 0 ∧ t.rCsum = 0
      else
        t.rType = s.rType ∧ t.rStream = s.rStream ∧ t.rSeq = s.rSeq ∧ t.rTs = s.rTs ∧ t.rFlags = s.rFlags
        ∧ t.rCsum = s.rCsum

/-- The receive history grows by exactly the accepted receive event, and only while busy (20_memory.md R43,
44_interfaces.md R139). -/
def Obligations.ReceiveHistoryIsTheAcceptedEvents : Prop :=
  ∀ s t : State, step s = .next t →
    (t.rxHist = s.rxHist ∧ ∀ b s', s.fetch ≠ some (.rx b, s'))
    ∨ (∃ b s', s.fetch = some (.rx b, s') ∧ s.busy = true
        ∧ t.rxHist = s.rxHist ++ [if b = [] then .closed else .frame b])

/-- A completion leaves one of two outcomes (10_state.md R20): OK = 1 with ERR = 0, or OK = 0 with an error code. -/
def Obligations.CompletionLeavesAnOutcome : Prop :=
  ∀ (s s' t : State) (e : Event), s.fetch = some (e, s') → step s = .next t →
    ((∃ v, e = .host (.writeReg 0x08#8 v)) ∨ ∃ b, e = .rx b) → t.busy = false →
    (t.ok = true ∧ t.err = 0#8) ∨ (t.ok = false ∧ t.err ≠ 0#8)

/-- OK and ERR are visible until the next command is accepted (60_exceptions.md R162): no other event than a command, a
receive event or reset changes them. -/
def Obligations.OutcomeStaysUntilTheNextCommand : Prop :=
  ∀ (s s' t : State) (e : Event), s.fetch = some (e, s') → step s = .next t →
    (∀ v, e ≠ .host (.writeReg 0x08#8 v)) → (∀ b, e ≠ .rx b) → e ≠ .rst → t.ok = s.ok ∧ t.err = s.err

/-- A write to an operand register or IBUF, or a change of the input ports, after a command was accepted does not affect
that command (70_reset_and_hazards.md R182, 20_memory.md R41): the receive event that completes it does the same, and
leaves the new values. -/
def Obligations.LaterOperandWriteDoesNotAffectACommand : Prop :=
  ∀ (ty : Byte) (h : Header) (pl : Bytes) (s t : State) (a d : BitVec 8) (b : BitVec 16) (c clk : BitVec 64)
    (nonce : BitVec 256) (buf : Bytes), s.busy = true → exec (frameRow ty h pl) s = .next t →
    exec (frameRow ty h pl)
      { s with opType := a, opStream := b, opSeq := c, opFlags := d, ibuf := buf, clkNow := clk, nonceIn := nonce }
    = .next
      { t with opType := a, opStream := b, opSeq := c, opFlags := d, ibuf := buf, clkNow := clk, nonceIn := nonce }

/-- No error damages later operations (60_exceptions.md R164, 41_codec.md R97): CRC16, ENCODE and DECODE give results that
depend on their operands alone, whatever errors, sessions and earlier packets the two states have seen. -/
def Obligations.CodecResultsDependOnOperandsAlone : Prop :=
  ∀ s r : State, s.busy = false → r.busy = false → s.ibuf = r.ibuf →
    (∃ t u, exec .crc16 s = .next t ∧ exec .crc16 r = .next u ∧ t.crcResult = u.crcResult ∧ t.ok = u.ok
      ∧ t.err = u.err)
    ∧ (∃ t u, exec .decode s = .next t ∧ exec .decode r = .next u ∧ t.ok = u.ok ∧ t.err = u.err
      ∧ (t.ok = true → t.rType = u.rType ∧ t.rStream = u.rStream ∧ t.rSeq = u.rSeq ∧ t.rTs = u.rTs
          ∧ t.rFlags = u.rFlags ∧ t.rCsum = u.rCsum ∧ t.obuf = u.obuf))
    ∧ (s.opType = r.opType → s.opStream = r.opStream → s.opSeq = r.opSeq → s.opFlags = r.opFlags →
        s.clkNow = r.clkNow →
        ∃ t u, exec .encode s = .next t ∧ exec .encode r = .next u ∧ t.ok = u.ok ∧ t.err = u.err
          ∧ (t.ok = true → t.obuf = u.obuf))

/-- A busy core with no receive event to come and no reset stays busy for ever, whatever the host and the platform do
meanwhile: after any number of steps it waits in the same state of the FSM, with the outcome and the histories as they
were (42_handshake.md R101, 95_test_vectors.md P6). Where the host has nothing but a command that cannot be accepted, and
what stands behind it, the whole state stays: stuck, not final (44_interfaces.md R132; log 2, log 11). -/
def Obligations.WaitWithoutAnEventNeverEnds : Prop :=
  (∀ (s t : State) (k : Nat), s.busy = true → (∀ e ∈ s.pending, e ≠ .rst ∧ ∀ b, e ≠ .rx b) →
    (Host.Core.run Sys2Proof.core k s : Host.Outcome State Fault Refusal) = .next t →
    t.busy = true ∧ t.fsm = s.fsm ∧ t.kaPending = s.kaPending ∧ t.ok = s.ok ∧ t.err = s.err ∧ t.txHist = s.txHist
      ∧ t.rxHist = s.rxHist)
  ∧ (∀ (s : State) (k : Nat), s.busy = true →
    (s.pending = [] ∨ ∃ v rest, s.pending = .host (.writeReg 0x08#8 v) :: rest ∧ ∀ e ∈ rest, e.ofHost = true) →
    s.Stuck ∧ (Host.Core.run Sys2Proof.core k s : Host.Outcome State Fault Refusal) = .next s)

/-- Whatever the host, the transport and the platform do, as long as no read and no load is longer than MAX_FRAME, every
step answers a next state, and the events to come stay so (60_exceptions.md R153, R158: an error is no crash). -/
def Obligations.KnownEventsNeverStopTheMachine : Prop :=
  ∀ s : State, s.Safe Config.params → ∃ t, step s = .next t ∧ t.Safe Config.params

/-! ## The default payload functions -/

/-- The default ACK_PARSE (42_handshake.md R109): it gives `i` exactly where the first key is followed by white space, a
colon, white space, a quote, `i`, and the next quote. -/
def Obligations.DefaultAckParseFindsTheIdentifier : Prop :=
  ∀ p i : Bytes,
    let key : Bytes := [0x22, 0x73, 0x65, 0x73, 0x73, 0x69, 0x6F, 0x6E, 0x5F, 0x69, 0x64, 0x22]
    let space : Byte → Prop := fun c => c = 0x20#8 ∨ c = 0x09#8 ∨ c = 0x0A#8 ∨ c = 0x0D#8
    ackParseDefault p = some i ↔
      ∃ before w1 w2 after,
        p = before ++ key ++ w1 ++ [0x3A#8] ++ w2 ++ [0x22#8] ++ i ++ [0x22#8] ++ after
        ∧ (∀ n, n < before.length → ¬ key <+: p.drop n)
        ∧ (∀ c ∈ w1, space c) ∧ (∀ c ∈ w2, space c) ∧ 0x22#8 ∉ i

/-- The default HELLO_SER (42_handshake.md R108): the fixed text around two lowercase hexadecimal digits a byte, high
nibble first, and the version in decimal without a leading zero. -/
def Obligations.DefaultHelloTextIsExact : Prop :=
  ∀ (nonce : Bytes) (version : Nat),
    let digits : Bytes := [0x30, 0x31, 0x32, 0x33, 0x34, 0x35, 0x36, 0x37, 0x38, 0x39, 0x61, 0x62, 0x63, 0x64, 0x65, 0x66]
    ∃ h d : Bytes,
      helloSerDefault nonce version
        = [0x7B, 0x22, 0x6E, 0x6F, 0x6E, 0x63, 0x65, 0x22, 0x3A, 0x20, 0x22] ++ h
          ++ [0x22, 0x2C, 0x20, 0x22, 0x76, 0x65, 0x72, 0x73, 0x69, 0x6F, 0x6E, 0x22, 0x3A, 0x20] ++ d ++ [0x7D]
      ∧ h.length = 2 * nonce.length
      ∧ (∀ k, k < nonce.length →
          h.getD (2 * k) 0#8 = digits.getD ((nonce.getD k 0#8).toNat / 16) 0#8
          ∧ h.getD (2 * k + 1) 0#8 = digits.getD ((nonce.getD k 0#8).toNat % 16) 0#8)
      ∧ d ≠ [] ∧ (∀ c ∈ d, 0x30 ≤ c.toNat ∧ c.toNat ≤ 0x39) ∧ (d.head? = some 0x30#8 → d = [0x30#8])
      ∧ d.foldl (fun n c => 10 * n + (c.toNat - 0x30)) 0 = version
end

