-- ==== Sys2Proof/Laws/Bytes.lean ====
section
/-!
SUPPORT. The big-endian readers undo the writers, and the writers the readers; a header as 24 bytes in a row.
-/

namespace Sys2Proof.Machine

@[simp] theorem be16_length (v : BitVec 16) : (be16 v).length = 2 := rfl
@[simp] theorem be64_length (v : BitVec 64) : (be64 v).length = 8 := rfl

/-- The last byte of a concatenation. -/
theorem slice_low {w : Nat} (x : BitVec w) (y : Byte) : (x ++ y).extractLsb' 0 8 = y := by
  apply BitVec.eq_of_getLsbD_eq
  intro i hi
  simp [BitVec.getLsbD_append, hi]

/-- The bytes above the last of a concatenation. -/
theorem slice_high {w : Nat} (x : BitVec w) (y : Byte) (k : Nat) :
    (x ++ y).extractLsb' (k + 8) 8 = x.extractLsb' k 8 := by
  apply BitVec.eq_of_getLsbD_eq
  intro i hi
  have h1 : ¬ (k + 8 + i < 8) := by omega
  have h2 : k + 8 + i - 8 = k + i := by omega
  simp [BitVec.getLsbD_append, hi, h1, h2]

/-- Two neighbouring slices make one. -/
theorem slice_join {w : Nat} (v : BitVec w) (k m : Nat) :
    v.extractLsb' (k + 8) m ++ v.extractLsb' k 8 = v.extractLsb' k (m + 8) := by
  apply BitVec.eq_of_getLsbD_eq
  intro i hi
  by_cases h : i < 8
  · have h' : i < m + 8 := by omega
    simp only [BitVec.getLsbD_append, BitVec.getLsbD_extractLsb']
    simp [h, h']
  · have h1 : i - 8 < m := by omega
    have h2 : k + 8 + (i - 8) = k + i := by omega
    simp only [BitVec.getLsbD_append, BitVec.getLsbD_extractLsb']
    simp [h, h1, h2, hi]

theorem slice_all {w : Nat} (v : BitVec w) : v.extractLsb' 0 w = v := by
  apply BitVec.eq_of_getLsbD_eq
  intro i hi
  simp [hi]

theorem slice_byte (y : Byte) : y.extractLsb' 0 8 = y := slice_all y

/-- `u16be` undoes `be16`, byte by byte. -/
theorem append_be16 (v : BitVec 16) : v.extractLsb' 8 8 ++ v.extractLsb' 0 8 = v :=
  (slice_join v 0 8).trans (slice_all v)

/-- `u64be` undoes `be64`, byte by byte. -/
theorem append_be64 (v : BitVec 64) :
    v.extractLsb' 56 8 ++ v.extractLsb' 48 8 ++ v.extractLsb' 40 8 ++ v.extractLsb' 32 8
      ++ v.extractLsb' 24 8 ++ v.extractLsb' 16 8 ++ v.extractLsb' 8 8 ++ v.extractLsb' 0 8 = v := by
  have h := slice_all v
  rw [← slice_join v 0 56, ← slice_join v 8 48, ← slice_join v 16 40, ← slice_join v 24 32,
    ← slice_join v 32 24, ← slice_join v 40 16, ← slice_join v 48 8] at h
  exact h

/-- `be16` undoes `u16be`, byte by byte. -/
theorem be16_append (a b : Byte) : be16 (a ++ b) = [a, b] := by
  have h : (a ++ b).extractLsb' 8 8 = a := (slice_high a b 0).trans (slice_byte a)
  simp only [be16, slice_low, h]

/-- `be64` undoes `u64be`, byte by byte. -/
theorem be64_append (a b c d e f g h : Byte) :
    be64 (a ++ b ++ c ++ d ++ e ++ f ++ g ++ h) = [a, b, c, d, e, f, g, h] := by
  have s : ∀ {w : Nat} (x : BitVec w) (y : Byte) (k n : Nat), n = k + 8 →
      (x ++ y).extractLsb' n 8 = x.extractLsb' k 8 := fun x y k n hn => hn ▸ slice_high x y k
  simp only [be64, List.cons.injEq, and_true]
  refine ⟨?_, ?_, ?_, ?_, ?_, ?_, ?_, ?_⟩
  · rw [s _ _ 48 _ rfl, s _ _ 40 _ rfl, s _ _ 32 _ rfl, s _ _ 24 _ rfl, s _ _ 16 _ rfl, s _ _ 8 _ rfl,
      s _ _ 0 _ rfl, slice_byte]
  · rw [s _ _ 40 _ rfl, s _ _ 32 _ rfl, s _ _ 24 _ rfl, s _ _ 16 _ rfl, s _ _ 8 _ rfl, s _ _ 0 _ rfl, slice_low]
  · rw [s _ _ 32 _ rfl, s _ _ 24 _ rfl, s _ _ 16 _ rfl, s _ _ 8 _ rfl, s _ _ 0 _ rfl, slice_low]
  · rw [s _ _ 24 _ rfl, s _ _ 16 _ rfl, s _ _ 8 _ rfl, s _ _ 0 _ rfl, slice_low]
  · rw [s _ _ 16 _ rfl, s _ _ 8 _ rfl, s _ _ 0 _ rfl, slice_low]
  · rw [s _ _ 8 _ rfl, s _ _ 0 _ rfl, slice_low]
  · rw [s _ _ 0 _ rfl, slice_low]
  · rw [slice_low]

/-- A sequence of at least 24 bytes is 24 bytes and a rest. -/
theorem headerLen_cons (f : Bytes) (h : headerLen ≤ f.length) :
    ∃ a b c d e g i j k l m n o p q r t u v w x y z zz rest,
      f = a :: b :: c :: d :: e :: g :: i :: j :: k :: l :: m :: n :: o :: p :: q :: r :: t :: u :: v :: w :: x
        :: y :: z :: zz :: rest := by
  unfold headerLen at h
  have cut : ∀ (n : Nat) (f : Bytes), n + 1 ≤ f.length → ∃ a r, f = a :: r ∧ n ≤ r.length := by
    intro n f h
    cases f with
    | nil => simp at h
    | cons a r => exact ⟨a, r, rfl, by simpa using h⟩
  obtain ⟨a, f1, rfl, h1⟩ := cut _ _ h
  obtain ⟨b, f2, rfl, h2⟩ := cut _ _ h1
  obtain ⟨c, f3, rfl, h3⟩ := cut _ _ h2
  obtain ⟨d, f4, rfl, h4⟩ := cut _ _ h3
  obtain ⟨e, f5, rfl, h5⟩ := cut _ _ h4
  obtain ⟨g, f6, rfl, h6⟩ := cut _ _ h5
  obtain ⟨i, f7, rfl, h7⟩ := cut _ _ h6
  obtain ⟨j, f8, rfl, h8⟩ := cut _ _ h7
  obtain ⟨k, f9, rfl, h9⟩ := cut _ _ h8
  obtain ⟨l, f10, rfl, h10⟩ := cut _ _ h9
  obtain ⟨m, f11, rfl, h11⟩ := cut _ _ h10
  obtain ⟨n, f12, rfl, h12⟩ := cut _ _ h11
  obtain ⟨o, f13, rfl, h13⟩ := cut _ _ h12
  obtain ⟨p, f14, rfl, h14⟩ := cut _ _ h13
  obtain ⟨q, f15, rfl, h15⟩ := cut _ _ h14
  obtain ⟨r, f16, rfl, h16⟩ := cut _ _ h15
  obtain ⟨t, f17, rfl, h17⟩ := cut _ _ h16
  obtain ⟨u, f18, rfl, h18⟩ := cut _ _ h17
  obtain ⟨v, f19, rfl, h19⟩ := cut _ _ h18
  obtain ⟨w, f20, rfl, h20⟩ := cut _ _ h19
  obtain ⟨x, f21, rfl, h21⟩ := cut _ _ h20
  obtain ⟨y, f22, rfl, h22⟩ := cut _ _ h21
  obtain ⟨z, f23, rfl, h23⟩ := cut _ _ h22
  obtain ⟨zz, f24, rfl, h24⟩ := cut _ _ h23
  exact ⟨a, b, c, d, e, g, i, j, k, l, m, n, o, p, q, r, t, u, v, w, x, y, z, zz, f24, rfl⟩

/-- The header of a frame is 24 bytes long. -/
@[simp] theorem header_write_length (ty : Byte) (h : Header) : (h.write ty).length = 24 := by
  simp [Header.write]

/-- A frame is its header and its payload, in length. -/
@[simp] theorem wire_length (ty : Byte) (h : Header) (pl : Bytes) : (wire ty h pl).length = pl.length + 24 := by
  simp [wire, Nat.add_comm]

/-- The readers give back the fields of a header. -/
theorem header_read_wire (ty : Byte) (h : Header) (pl : Bytes) : Header.read (wire ty h pl) = h := by
  cases h
  simp [Header.read, wire, Header.write, be16, be64, u8, u16be, u64be, append_be16, append_be64]

theorem type_of_wire (ty : Byte) (h : Header) (pl : Bytes) : u8 (wire ty h pl) 2 = ty := by
  simp [wire, Header.write, be16, be64, u8]

theorem payload_of_wire (ty : Byte) (h : Header) (pl : Bytes) : (wire ty h pl).drop headerLen = pl := by
  simp [wire, headerLen]

/-- The writers give back the bytes of a frame. -/
theorem wire_of_read (f : Bytes) (hf : headerLen ≤ f.length) :
    wire (u8 f 2) (Header.read f) (f.drop headerLen) = f := by
  obtain ⟨a, b, c, d, e, g, i, j, k, l, m, n, o, p, q, r, t, u, v, w, x, y, z, zz, rest, rfl⟩ := headerLen_cons f hf
  simp [wire, Header.write, Header.read, u16be, u64be, u8, be16_append, be64_append, headerLen]

@[simp] theorem beNat_length (n w : Nat) : (beNat n w).length = n := by
  induction n with
  | zero => rfl
  | succ n ih => simp [beNat, ih]

/-- Byte `k` of the `n` bytes of a number, most significant first. -/
theorem beNat_getD (n w k : Nat) (hk : k < n) :
    (beNat n w).getD k 0#8 = BitVec.ofNat 8 (w >>> (8 * (n - 1 - k))) := by
  induction n generalizing k with
  | zero => omega
  | succ n ih =>
    cases k with
    | zero => rfl
    | succ k =>
      rw [beNat, List.getD_cons_succ, ih k (by omega), show n + 1 - 1 - (k + 1) = n - 1 - k by omega]

@[simp] theorem nonceBytes_length (nonce : BitVec 256) : (nonceBytes nonce).length = 32 := beNat_length _ _

/-- Byte `k` of the nonce (44_interfaces.md R136). -/
theorem nonceBytes_getD (nonce : BitVec 256) (k : Nat) (hk : k < 32) :
    (nonceBytes nonce).getD k 0#8 = nonce.extractLsb' (248 - 8 * k) 8 := by
  rw [nonceBytes, beNat_getD _ _ _ hk, show 8 * (32 - 1 - k) = 248 - 8 * k by omega]
  rfl

end Sys2Proof.Machine
end

