-- ==== Sys2Proof/Laws/Crc.lean ====
section
/-!
SUPPORT. The checksum as a linear machine: the bit step is linear and loses nothing, the byte step feeds eight bits one
at a time, and the checksums of two sequences of one length differ by what their difference gives from 0.
-/

namespace Sys2Proof.Machine

@[simp] theorem crcBit_zero : crcBit 0#16 = 0#16 := by decide

/-- The bit step is linear. -/
theorem crcBit_xor (r s : BitVec 16) : crcBit (r ^^^ s) = crcBit r ^^^ crcBit s := by
  unfold crcBit
  rw [BitVec.getLsbD_xor, BitVec.shiftLeft_xor_distrib]
  cases r.getLsbD 15 <;> cases s.getLsbD 15
  · rfl
  · exact BitVec.xor_assoc _ _ _
  · simp only [Bool.xor_false, if_true, Bool.false_eq_true, if_false]
    rw [BitVec.xor_assoc, BitVec.xor_comm (s <<< 1), ← BitVec.xor_assoc]
  · simp only [bne_self_eq_false, Bool.false_eq_true, if_false, if_true]
    rw [BitVec.xor_assoc (r <<< 1), BitVec.xor_comm (s <<< 1), ← BitVec.xor_assoc 0x1021#16, BitVec.xor_self,
      BitVec.zero_xor]

/-- Bit 0 after a bit step is the bit that was shifted out. -/
theorem crcBit_low (r : BitVec 16) : (crcBit r).getLsbD 0 = r.getLsbD 15 := by
  unfold crcBit
  cases h : r.getLsbD 15 <;> simp

/-- Where no bit is shifted out, the bit step moves every bit one place up. -/
theorem crcBit_shift (r : BitVec 16) (h : r.getLsbD 15 = false) (i : Nat) (hi : i < 15) :
    (crcBit r).getLsbD (i + 1) = r.getLsbD i := by
  rw [crcBit, h, if_neg Bool.false_ne_true, BitVec.getLsbD_shiftLeft]
  simp [show i + 1 < 16 by omega]

/-- The bit step loses nothing. -/
theorem crcBit_eq_zero {r : BitVec 16} (h : crcBit r = 0#16) : r = 0#16 := by
  have h15 : r.getLsbD 15 = false := by rw [← crcBit_low, h]; rfl
  apply BitVec.eq_of_getLsbD_eq
  intro i hi
  rcases Nat.lt_or_ge i 15 with hl | hl
  · rw [← crcBit_shift r h15 i hl, h]; simp
  · rw [show i = 15 by omega, h15]; rfl

/-- One bit at a time: the bit is exclusive-ored into bit 15, then a bit step. -/
def crcSerial (r : BitVec 16) : List Bool → BitVec 16
  | [] => r
  | b :: bs => crcSerial (crcBit (r ^^^ if b then 0x8000#16 else 0#16)) bs

/-- The bits of a byte, most significant first. -/
def byteBits (b : Byte) : List Bool := (List.range 8).map fun k => b.getLsbD (7 - k)

/-- The bits of a sequence, in the order in which the checksum takes them. -/
def bitsOf (bs : Bytes) : List Bool := bs.flatMap byteBits

theorem crcSerial_append (r : BitVec 16) (xs ys : List Bool) :
    crcSerial r (xs ++ ys) = crcSerial (crcSerial r xs) ys := by
  induction xs generalizing r with
  | nil => rfl
  | cons x xs ih => exact ih _

/-- The serial form is linear in register and bits together. -/
theorem crcSerial_xor (r s : BitVec 16) (xs ys : List Bool) (h : xs.length = ys.length) :
    crcSerial (r ^^^ s) (List.zipWith xor xs ys) = crcSerial r xs ^^^ crcSerial s ys := by
  induction xs generalizing r s ys with
  | nil => cases ys <;> simp_all [crcSerial]
  | cons x xs ih =>
    cases ys with
    | nil => cases h
    | cons y ys =>
      have hb : (if xor x y then 0x8000#16 else 0#16)
          = (if x then 0x8000#16 else 0#16) ^^^ if y then 0x8000#16 else 0#16 := by cases x <;> cases y <;> rfl
      simp only [List.zipWith_cons_cons, crcSerial, hb]
      rw [← ih _ _ _ (by simpa using h), ← crcBit_xor]
      congr 2
      ac_rfl

/-- Zero bits take a zero register to zero. -/
theorem crcSerial_zeros (n : Nat) : crcSerial 0#16 (List.replicate n false) = 0#16 := by
  induction n with
  | zero => rfl
  | succ n ih => simpa [crcSerial, List.replicate_succ] using ih

/-- Zero bits lose nothing. -/
theorem crcSerial_replicate_eq_zero {n : Nat} {r : BitVec 16} (h : crcSerial r (List.replicate n false) = 0#16) :
    r = 0#16 := by
  induction n generalizing r with
  | zero => exact h
  | succ n ih => simpa using crcBit_eq_zero (ih h)

/-- A register that fewer than 16 bits take to zero has zeros in the places they do not reach. -/
theorem crcSerial_low {w : List Bool} {r : BitVec 16} (h : crcSerial r w = 0#16) :
    ∀ i, i + w.length < 16 → r.getLsbD i = false := by
  induction w generalizing r with
  | nil => intro i _; rw [show r = 0#16 from h]; simp
  | cons b w ih =>
    intro i hi
    have hi : i + (w.length + 1) < 16 := hi
    have key := ih h
    have h0 := key 0 (by omega)
    rw [crcBit_low] at h0
    have h1 := key (i + 1) (by omega)
    rw [crcBit_shift _ h0 i (by omega)] at h1
    cases b
    · simpa using h1
    · simpa [BitVec.getLsbD_xor, show (0x8000#16).getLsbD i = false by
        have : i < 15 := by omega
        interval_cases i <;> rfl] using h1

/-- At most 16 bits, not all zero, leave no zero register behind. -/
theorem crcSerial_burst (w : List Bool) (h : w.length < 16) : crcSerial 0#16 (true :: w) ≠ 0#16 := by
  intro hz
  exact absurd (crcSerial_low (r := crcBit 0x8000#16) (w := w) hz 0 (by omega)) (by decide)

@[simp] theorem byteBits_length (b : Byte) : (byteBits b).length = 8 := by simp [byteBits]

@[simp] theorem bitsOf_length (bs : Bytes) : (bitsOf bs).length = 8 * bs.length := by
  induction bs with
  | nil => rfl
  | cons b bs ih => simp [bitsOf] at ih ⊢; omega

theorem crcBits_xor (n : Nat) (r s : BitVec 16) : crcBits n (r ^^^ s) = crcBits n r ^^^ crcBits n s := by
  induction n generalizing r s with
  | zero => rfl
  | succ n ih => rw [crcBits, crcBit_xor, ih]; rfl

/-- The byte step is eight bits, most significant first. -/
theorem crcByte_serial (r : BitVec 16) (b : Byte) : crcByte r b = crcSerial r (byteBits b) := by
  have h8 : ∀ b : Byte, crcBits 8 (b.setWidth 16 <<< 8) = crcSerial 0#16 (byteBits b) := by decide +kernel
  have hz : crcSerial r (List.replicate 8 false) = crcBits 8 r := by simp [List.replicate, crcSerial, crcBits]
  have hx := crcSerial_xor r 0#16 (List.replicate 8 false) (byteBits b) (by simp)
  have hl : List.zipWith xor (List.replicate 8 false) (byteBits b) = byteBits b := by
    simp [byteBits, List.replicate, List.range, List.range.loop]
  rw [hl, BitVec.xor_zero, hz, ← h8] at hx
  rw [hx, crcByte, crcBits_xor]

/-- The bytes of a sequence, bit by bit. -/
theorem crcFrom_serial (r : BitVec 16) (bs : Bytes) : crcFrom r bs = crcSerial r (bitsOf bs) := by
  induction bs generalizing r with
  | nil => rfl
  | cons b bs ih =>
    change crcFrom (crcByte r b) bs = _
    rw [ih, crcByte_serial, ← crcSerial_append]
    rfl

/-- The checksums of two sequences of one length are equal exactly where their difference gives 0 from 0. -/
theorem crc16_eq_iff (a b : Bytes) (h : a.length = b.length) :
    crc16 a = crc16 b ↔ crcSerial 0#16 (List.zipWith xor (bitsOf a) (bitsOf b)) = 0#16 := by
  have hx := crcSerial_xor 0xFFFF#16 0xFFFF#16 (bitsOf a) (bitsOf b) (by simp [h])
  rw [BitVec.xor_self] at hx
  rw [hx, ← crcFrom_serial, ← crcFrom_serial, BitVec.xor_eq_zero_iff]
  rfl

/-- Position `k` of the bits is bit `7 - k % 8` of byte `k / 8`. -/
theorem bitsOf_getD (bs : Bytes) (k : Nat) (hk : k < 8 * bs.length) :
    (bitsOf bs).getD k false = (bs.getD (k / 8) 0#8).getLsbD (7 - k % 8) := by
  induction bs generalizing k with
  | nil => simp at hk
  | cons b bs ih =>
    change (byteBits b ++ bitsOf bs).getD k false = _
    rcases Nat.lt_or_ge k 8 with hl | hl
    · rw [List.getD_append _ _ _ _ (by simpa using hl)]
      have : k / 8 = 0 := by omega
      rw [this]
      have : k % 8 = k := by omega
      rw [this]
      simp [byteBits, hl]
    · rw [List.getD_append_right _ _ _ _ (by simpa using hl), byteBits_length, ih _ (by simp at hk; omega)]
      have h1 : k / 8 = (k - 8) / 8 + 1 := by omega
      have h2 : (k - 8) % 8 = k % 8 := by omega
      rw [h1, h2, List.getD_cons_succ]

end Sys2Proof.Machine
end

