-- ==== Sys2Proof/Laws/State.lean ====
section
/-!
SUPPORT. One lemma per field per update, each true by rfl: what a shared update writes, and that it leaves every other
field alone. No later proof unfolds a record update.
-/

namespace Sys2Proof.Machine

variable (s : State)

@[simp] theorem clearOutcome_fsm : (clearOutcome s).fsm = s.fsm := rfl
@[simp] theorem clearOutcome_kaPending : (clearOutcome s).kaPending = s.kaPending := rfl
@[simp] theorem clearOutcome_opType : (clearOutcome s).opType = s.opType := rfl
@[simp] theorem clearOutcome_opStream : (clearOutcome s).opStream = s.opStream := rfl
@[simp] theorem clearOutcome_opSeq : (clearOutcome s).opSeq = s.opSeq := rfl
@[simp] theorem clearOutcome_opFlags : (clearOutcome s).opFlags = s.opFlags := rfl
@[simp] theorem clearOutcome_ibuf : (clearOutcome s).ibuf = s.ibuf := rfl
@[simp] theorem clearOutcome_obuf : (clearOutcome s).obuf = s.obuf := rfl
@[simp] theorem clearOutcome_rType : (clearOutcome s).rType = s.rType := rfl
@[simp] theorem clearOutcome_rStream : (clearOutcome s).rStream = s.rStream := rfl
@[simp] theorem clearOutcome_rSeq : (clearOutcome s).rSeq = s.rSeq := rfl
@[simp] theorem clearOutcome_rTs : (clearOutcome s).rTs = s.rTs := rfl
@[simp] theorem clearOutcome_rFlags : (clearOutcome s).rFlags = s.rFlags := rfl
@[simp] theorem clearOutcome_rCsum : (clearOutcome s).rCsum = s.rCsum := rfl
@[simp] theorem clearOutcome_crcResult : (clearOutcome s).crcResult = s.crcResult := rfl
@[simp] theorem clearOutcome_ok : (clearOutcome s).ok = false := rfl
@[simp] theorem clearOutcome_err : (clearOutcome s).err = 0#8 := rfl
@[simp] theorem clearOutcome_sid : (clearOutcome s).sid = s.sid := rfl
@[simp] theorem clearOutcome_sidValid : (clearOutcome s).sidValid = s.sidValid := rfl
@[simp] theorem clearOutcome_clkNow : (clearOutcome s).clkNow = s.clkNow := rfl
@[simp] theorem clearOutcome_nonceIn : (clearOutcome s).nonceIn = s.nonceIn := rfl
@[simp] theorem clearOutcome_pending : (clearOutcome s).pending = s.pending := rfl
@[simp] theorem clearOutcome_txHist : (clearOutcome s).txHist = s.txHist := rfl
@[simp] theorem clearOutcome_rxHist : (clearOutcome s).rxHist = s.rxHist := rfl
@[simp] theorem clearOutcome_hostReads : (clearOutcome s).hostReads = s.hostReads := rfl

@[simp] theorem succeed_fsm : (succeed s).fsm = s.fsm := rfl
@[simp] theorem succeed_kaPending : (succeed s).kaPending = s.kaPending := rfl
@[simp] theorem succeed_opType : (succeed s).opType = s.opType := rfl
@[simp] theorem succeed_opStream : (succeed s).opStream = s.opStream := rfl
@[simp] theorem succeed_opSeq : (succeed s).opSeq = s.opSeq := rfl
@[simp] theorem succeed_opFlags : (succeed s).opFlags = s.opFlags := rfl
@[simp] theorem succeed_ibuf : (succeed s).ibuf = s.ibuf := rfl
@[simp] theorem succeed_obuf : (succeed s).obuf = s.obuf := rfl
@[simp] theorem succeed_rType : (succeed s).rType = s.rType := rfl
@[simp] theorem succeed_rStream : (succeed s).rStream = s.rStream := rfl
@[simp] theorem succeed_rSeq : (succeed s).rSeq = s.rSeq := rfl
@[simp] theorem succeed_rTs : (succeed s).rTs = s.rTs := rfl
@[simp] theorem succeed_rFlags : (succeed s).rFlags = s.rFlags := rfl
@[simp] theorem succeed_rCsum : (succeed s).rCsum = s.rCsum := rfl
@[simp] theorem succeed_crcResult : (succeed s).crcResult = s.crcResult := rfl
@[simp] theorem succeed_ok : (succeed s).ok = true := rfl
@[simp] theorem succeed_err : (succeed s).err = 0#8 := rfl
@[simp] theorem succeed_sid : (succeed s).sid = s.sid := rfl
@[simp] theorem succeed_sidValid : (succeed s).sidValid = s.sidValid := rfl
@[simp] theorem succeed_clkNow : (succeed s).clkNow = s.clkNow := rfl
@[simp] theorem succeed_nonceIn : (succeed s).nonceIn = s.nonceIn := rfl
@[simp] theorem succeed_pending : (succeed s).pending = s.pending := rfl
@[simp] theorem succeed_txHist : (succeed s).txHist = s.txHist := rfl
@[simp] theorem succeed_rxHist : (succeed s).rxHist = s.rxHist := rfl
@[simp] theorem succeed_hostReads : (succeed s).hostReads = s.hostReads := rfl

@[simp] theorem raise_fsm (e : ErrorCode) : (raise e s).fsm = if s.fsm = .helloSent then .failed else s.fsm := rfl
@[simp] theorem raise_kaPending (e : ErrorCode) : (raise e s).kaPending = if s.fsm = .helloSent then s.kaPending else false := rfl
@[simp] theorem raise_opType (e : ErrorCode) : (raise e s).opType = s.opType := rfl
@[simp] theorem raise_opStream (e : ErrorCode) : (raise e s).opStream = s.opStream := rfl
@[simp] theorem raise_opSeq (e : ErrorCode) : (raise e s).opSeq = s.opSeq := rfl
@[simp] theorem raise_opFlags (e : ErrorCode) : (raise e s).opFlags = s.opFlags := rfl
@[simp] theorem raise_ibuf (e : ErrorCode) : (raise e s).ibuf = s.ibuf := rfl
@[simp] theorem raise_obuf (e : ErrorCode) : (raise e s).obuf = s.obuf := rfl
@[simp] theorem raise_rType (e : ErrorCode) : (raise e s).rType = s.rType := rfl
@[simp] theorem raise_rStream (e : ErrorCode) : (raise e s).rStream = s.rStream := rfl
@[simp] theorem raise_rSeq (e : ErrorCode) : (raise e s).rSeq = s.rSeq := rfl
@[simp] theorem raise_rTs (e : ErrorCode) : (raise e s).rTs = s.rTs := rfl
@[simp] theorem raise_rFlags (e : ErrorCode) : (raise e s).rFlags = s.rFlags := rfl
@[simp] theorem raise_rCsum (e : ErrorCode) : (raise e s).rCsum = s.rCsum := rfl
@[simp] theorem raise_crcResult (e : ErrorCode) : (raise e s).crcResult = s.crcResult := rfl
@[simp] theorem raise_ok (e : ErrorCode) : (raise e s).ok = false := rfl
@[simp] theorem raise_err (e : ErrorCode) : (raise e s).err = e.code := rfl
@[simp] theorem raise_sid (e : ErrorCode) : (raise e s).sid = s.sid := rfl
@[simp] theorem raise_sidValid (e : ErrorCode) : (raise e s).sidValid = s.sidValid := rfl
@[simp] theorem raise_clkNow (e : ErrorCode) : (raise e s).clkNow = s.clkNow := rfl
@[simp] theorem raise_nonceIn (e : ErrorCode) : (raise e s).nonceIn = s.nonceIn := rfl
@[simp] theorem raise_pending (e : ErrorCode) : (raise e s).pending = s.pending := rfl
@[simp] theorem raise_txHist (e : ErrorCode) : (raise e s).txHist = s.txHist := rfl
@[simp] theorem raise_rxHist (e : ErrorCode) : (raise e s).rxHist = s.rxHist := rfl
@[simp] theorem raise_hostReads (e : ErrorCode) : (raise e s).hostReads = s.hostReads := rfl

@[simp] theorem latch_fsm (p : Packet) : (latch p s).fsm = s.fsm := rfl
@[simp] theorem latch_kaPending (p : Packet) : (latch p s).kaPending = s.kaPending := rfl
@[simp] theorem latch_opType (p : Packet) : (latch p s).opType = s.opType := rfl
@[simp] theorem latch_opStream (p : Packet) : (latch p s).opStream = s.opStream := rfl
@[simp] theorem latch_opSeq (p : Packet) : (latch p s).opSeq = s.opSeq := rfl
@[simp] theorem latch_opFlags (p : Packet) : (latch p s).opFlags = s.opFlags := rfl
@[simp] theorem latch_ibuf (p : Packet) : (latch p s).ibuf = s.ibuf := rfl
@[simp] theorem latch_obuf (p : Packet) : (latch p s).obuf = p.payload := rfl
@[simp] theorem latch_rType (p : Packet) : (latch p s).rType = p.packetType := rfl
@[simp] theorem latch_rStream (p : Packet) : (latch p s).rStream = p.streamId := rfl
@[simp] theorem latch_rSeq (p : Packet) : (latch p s).rSeq = p.sequenceNumber := rfl
@[simp] theorem latch_rTs (p : Packet) : (latch p s).rTs = p.timestamp := rfl
@[simp] theorem latch_rFlags (p : Packet) : (latch p s).rFlags = p.flags := rfl
@[simp] theorem latch_rCsum (p : Packet) : (latch p s).rCsum = p.checksum := rfl
@[simp] theorem latch_crcResult (p : Packet) : (latch p s).crcResult = s.crcResult := rfl
@[simp] theorem latch_ok (p : Packet) : (latch p s).ok = s.ok := rfl
@[simp] theorem latch_err (p : Packet) : (latch p s).err = s.err := rfl
@[simp] theorem latch_sid (p : Packet) : (latch p s).sid = s.sid := rfl
@[simp] theorem latch_sidValid (p : Packet) : (latch p s).sidValid = s.sidValid := rfl
@[simp] theorem latch_clkNow (p : Packet) : (latch p s).clkNow = s.clkNow := rfl
@[simp] theorem latch_nonceIn (p : Packet) : (latch p s).nonceIn = s.nonceIn := rfl
@[simp] theorem latch_pending (p : Packet) : (latch p s).pending = s.pending := rfl
@[simp] theorem latch_txHist (p : Packet) : (latch p s).txHist = s.txHist := rfl
@[simp] theorem latch_rxHist (p : Packet) : (latch p s).rxHist = s.rxHist := rfl
@[simp] theorem latch_hostReads (p : Packet) : (latch p s).hostReads = s.hostReads := rfl

@[simp] theorem tx_fsm (f : Bytes) : (tx f s).fsm = s.fsm := rfl
@[simp] theorem tx_kaPending (f : Bytes) : (tx f s).kaPending = s.kaPending := rfl
@[simp] theorem tx_opType (f : Bytes) : (tx f s).opType = s.opType := rfl
@[simp] theorem tx_opStream (f : Bytes) : (tx f s).opStream = s.opStream := rfl
@[simp] theorem tx_opSeq (f : Bytes) : (tx f s).opSeq = s.opSeq := rfl
@[simp] theorem tx_opFlags (f : Bytes) : (tx f s).opFlags = s.opFlags := rfl
@[simp] theorem tx_ibuf (f : Bytes) : (tx f s).ibuf = s.ibuf := rfl
@[simp] theorem tx_obuf (f : Bytes) : (tx f s).obuf = s.obuf := rfl
@[simp] theorem tx_rType (f : Bytes) : (tx f s).rType = s.rType := rfl
@[simp] theorem tx_rStream (f : Bytes) : (tx f s).rStream = s.rStream := rfl
@[simp] theorem tx_rSeq (f : Bytes) : (tx f s).rSeq = s.rSeq := rfl
@[simp] theorem tx_rTs (f : Bytes) : (tx f s).rTs = s.rTs := rfl
@[simp] theorem tx_rFlags (f : Bytes) : (tx f s).rFlags = s.rFlags := rfl
@[simp] theorem tx_rCsum (f : Bytes) : (tx f s).rCsum = s.rCsum := rfl
@[simp] theorem tx_crcResult (f : Bytes) : (tx f s).crcResult = s.crcResult := rfl
@[simp] theorem tx_ok (f : Bytes) : (tx f s).ok = s.ok := rfl
@[simp] theorem tx_err (f : Bytes) : (tx f s).err = s.err := rfl
@[simp] theorem tx_sid (f : Bytes) : (tx f s).sid = s.sid := rfl
@[simp] theorem tx_sidValid (f : Bytes) : (tx f s).sidValid = s.sidValid := rfl
@[simp] theorem tx_clkNow (f : Bytes) : (tx f s).clkNow = s.clkNow := rfl
@[simp] theorem tx_nonceIn (f : Bytes) : (tx f s).nonceIn = s.nonceIn := rfl
@[simp] theorem tx_pending (f : Bytes) : (tx f s).pending = s.pending := rfl
@[simp] theorem tx_txHist (f : Bytes) : (tx f s).txHist = s.txHist ++ [f] := rfl
@[simp] theorem tx_rxHist (f : Bytes) : (tx f s).rxHist = s.rxHist := rfl
@[simp] theorem tx_hostReads (f : Bytes) : (tx f s).hostReads = s.hostReads := rfl

@[simp] theorem recordRx_fsm (e : RxEvent) : (recordRx e s).fsm = s.fsm := rfl
@[simp] theorem recordRx_kaPending (e : RxEvent) : (recordRx e s).kaPending = s.kaPending := rfl
@[simp] theorem recordRx_opType (e : RxEvent) : (recordRx e s).opType = s.opType := rfl
@[simp] theorem recordRx_opStream (e : RxEvent) : (recordRx e s).opStream = s.opStream := rfl
@[simp] theorem recordRx_opSeq (e : RxEvent) : (recordRx e s).opSeq = s.opSeq := rfl
@[simp] theorem recordRx_opFlags (e : RxEvent) : (recordRx e s).opFlags = s.opFlags := rfl
@[simp] theorem recordRx_ibuf (e : RxEvent) : (recordRx e s).ibuf = s.ibuf := rfl
@[simp] theorem recordRx_obuf (e : RxEvent) : (recordRx e s).obuf = s.obuf := rfl
@[simp] theorem recordRx_rType (e : RxEvent) : (recordRx e s).rType = s.rType := rfl
@[simp] theorem recordRx_rStream (e : RxEvent) : (recordRx e s).rStream = s.rStream := rfl
@[simp] theorem recordRx_rSeq (e : RxEvent) : (recordRx e s).rSeq = s.rSeq := rfl
@[simp] theorem recordRx_rTs (e : RxEvent) : (recordRx e s).rTs = s.rTs := rfl
@[simp] theorem recordRx_rFlags (e : RxEvent) : (recordRx e s).rFlags = s.rFlags := rfl
@[simp] theorem recordRx_rCsum (e : RxEvent) : (recordRx e s).rCsum = s.rCsum := rfl
@[simp] theorem recordRx_crcResult (e : RxEvent) : (recordRx e s).crcResult = s.crcResult := rfl
@[simp] theorem recordRx_ok (e : RxEvent) : (recordRx e s).ok = s.ok := rfl
@[simp] theorem recordRx_err (e : RxEvent) : (recordRx e s).err = s.err := rfl
@[simp] theorem recordRx_sid (e : RxEvent) : (recordRx e s).sid = s.sid := rfl
@[simp] theorem recordRx_sidValid (e : RxEvent) : (recordRx e s).sidValid = s.sidValid := rfl
@[simp] theorem recordRx_clkNow (e : RxEvent) : (recordRx e s).clkNow = s.clkNow := rfl
@[simp] theorem recordRx_nonceIn (e : RxEvent) : (recordRx e s).nonceIn = s.nonceIn := rfl
@[simp] theorem recordRx_pending (e : RxEvent) : (recordRx e s).pending = s.pending := rfl
@[simp] theorem recordRx_txHist (e : RxEvent) : (recordRx e s).txHist = s.txHist := rfl
@[simp] theorem recordRx_rxHist (e : RxEvent) : (recordRx e s).rxHist = s.rxHist ++ [e] := rfl
@[simp] theorem recordRx_hostReads (e : RxEvent) : (recordRx e s).hostReads = s.hostReads := rfl

@[simp] theorem moveTo_fsm (f : Fsm) : (moveTo f s).fsm = f := rfl
@[simp] theorem moveTo_kaPending (f : Fsm) : (moveTo f s).kaPending = s.kaPending := rfl
@[simp] theorem moveTo_opType (f : Fsm) : (moveTo f s).opType = s.opType := rfl
@[simp] theorem moveTo_opStream (f : Fsm) : (moveTo f s).opStream = s.opStream := rfl
@[simp] theorem moveTo_opSeq (f : Fsm) : (moveTo f s).opSeq = s.opSeq := rfl
@[simp] theorem moveTo_opFlags (f : Fsm) : (moveTo f s).opFlags = s.opFlags := rfl
@[simp] theorem moveTo_ibuf (f : Fsm) : (moveTo f s).ibuf = s.ibuf := rfl
@[simp] theorem moveTo_obuf (f : Fsm) : (moveTo f s).obuf = s.obuf := rfl
@[simp] theorem moveTo_rType (f : Fsm) : (moveTo f s).rType = s.rType := rfl
@[simp] theorem moveTo_rStream (f : Fsm) : (moveTo f s).rStream = s.rStream := rfl
@[simp] theorem moveTo_rSeq (f : Fsm) : (moveTo f s).rSeq = s.rSeq := rfl
@[simp] theorem moveTo_rTs (f : Fsm) : (moveTo f s).rTs = s.rTs := rfl
@[simp] theorem moveTo_rFlags (f : Fsm) : (moveTo f s).rFlags = s.rFlags := rfl
@[simp] theorem moveTo_rCsum (f : Fsm) : (moveTo f s).rCsum = s.rCsum := rfl
@[simp] theorem moveTo_crcResult (f : Fsm) : (moveTo f s).crcResult = s.crcResult := rfl
@[simp] theorem moveTo_ok (f : Fsm) : (moveTo f s).ok = s.ok := rfl
@[simp] theorem moveTo_err (f : Fsm) : (moveTo f s).err = s.err := rfl
@[simp] theorem moveTo_sid (f : Fsm) : (moveTo f s).sid = s.sid := rfl
@[simp] theorem moveTo_sidValid (f : Fsm) : (moveTo f s).sidValid = s.sidValid := rfl
@[simp] theorem moveTo_clkNow (f : Fsm) : (moveTo f s).clkNow = s.clkNow := rfl
@[simp] theorem moveTo_nonceIn (f : Fsm) : (moveTo f s).nonceIn = s.nonceIn := rfl
@[simp] theorem moveTo_pending (f : Fsm) : (moveTo f s).pending = s.pending := rfl
@[simp] theorem moveTo_txHist (f : Fsm) : (moveTo f s).txHist = s.txHist := rfl
@[simp] theorem moveTo_rxHist (f : Fsm) : (moveTo f s).rxHist = s.rxHist := rfl
@[simp] theorem moveTo_hostReads (f : Fsm) : (moveTo f s).hostReads = s.hostReads := rfl

@[simp] theorem setKaPending_fsm (b : Bool) : (setKaPending b s).fsm = s.fsm := rfl
@[simp] theorem setKaPending_kaPending (b : Bool) : (setKaPending b s).kaPending = b := rfl
@[simp] theorem setKaPending_opType (b : Bool) : (setKaPending b s).opType = s.opType := rfl
@[simp] theorem setKaPending_opStream (b : Bool) : (setKaPending b s).opStream = s.opStream := rfl
@[simp] theorem setKaPending_opSeq (b : Bool) : (setKaPending b s).opSeq = s.opSeq := rfl
@[simp] theorem setKaPending_opFlags (b : Bool) : (setKaPending b s).opFlags = s.opFlags := rfl
@[simp] theorem setKaPending_ibuf (b : Bool) : (setKaPending b s).ibuf = s.ibuf := rfl
@[simp] theorem setKaPending_obuf (b : Bool) : (setKaPending b s).obuf = s.obuf := rfl
@[simp] theorem setKaPending_rType (b : Bool) : (setKaPending b s).rType = s.rType := rfl
@[simp] theorem setKaPending_rStream (b : Bool) : (setKaPending b s).rStream = s.rStream := rfl
@[simp] theorem setKaPending_rSeq (b : Bool) : (setKaPending b s).rSeq = s.rSeq := rfl
@[simp] theorem setKaPending_rTs (b : Bool) : (setKaPending b s).rTs = s.rTs := rfl
@[simp] theorem setKaPending_rFlags (b : Bool) : (setKaPending b s).rFlags = s.rFlags := rfl
@[simp] theorem setKaPending_rCsum (b : Bool) : (setKaPending b s).rCsum = s.rCsum := rfl
@[simp] theorem setKaPending_crcResult (b : Bool) : (setKaPending b s).crcResult = s.crcResult := rfl
@[simp] theorem setKaPending_ok (b : Bool) : (setKaPending b s).ok = s.ok := rfl
@[simp] theorem setKaPending_err (b : Bool) : (setKaPending b s).err = s.err := rfl
@[simp] theorem setKaPending_sid (b : Bool) : (setKaPending b s).sid = s.sid := rfl
@[simp] theorem setKaPending_sidValid (b : Bool) : (setKaPending b s).sidValid = s.sidValid := rfl
@[simp] theorem setKaPending_clkNow (b : Bool) : (setKaPending b s).clkNow = s.clkNow := rfl
@[simp] theorem setKaPending_nonceIn (b : Bool) : (setKaPending b s).nonceIn = s.nonceIn := rfl
@[simp] theorem setKaPending_pending (b : Bool) : (setKaPending b s).pending = s.pending := rfl
@[simp] theorem setKaPending_txHist (b : Bool) : (setKaPending b s).txHist = s.txHist := rfl
@[simp] theorem setKaPending_rxHist (b : Bool) : (setKaPending b s).rxHist = s.rxHist := rfl
@[simp] theorem setKaPending_hostReads (b : Bool) : (setKaPending b s).hostReads = s.hostReads := rfl

@[simp] theorem setIbuf_fsm (b : Bytes) : (setIbuf b s).fsm = s.fsm := rfl
@[simp] theorem setIbuf_kaPending (b : Bytes) : (setIbuf b s).kaPending = s.kaPending := rfl
@[simp] theorem setIbuf_opType (b : Bytes) : (setIbuf b s).opType = s.opType := rfl
@[simp] theorem setIbuf_opStream (b : Bytes) : (setIbuf b s).opStream = s.opStream := rfl
@[simp] theorem setIbuf_opSeq (b : Bytes) : (setIbuf b s).opSeq = s.opSeq := rfl
@[simp] theorem setIbuf_opFlags (b : Bytes) : (setIbuf b s).opFlags = s.opFlags := rfl
@[simp] theorem setIbuf_ibuf (b : Bytes) : (setIbuf b s).ibuf = b := rfl
@[simp] theorem setIbuf_obuf (b : Bytes) : (setIbuf b s).obuf = s.obuf := rfl
@[simp] theorem setIbuf_rType (b : Bytes) : (setIbuf b s).rType = s.rType := rfl
@[simp] theorem setIbuf_rStream (b : Bytes) : (setIbuf b s).rStream = s.rStream := rfl
@[simp] theorem setIbuf_rSeq (b : Bytes) : (setIbuf b s).rSeq = s.rSeq := rfl
@[simp] theorem setIbuf_rTs (b : Bytes) : (setIbuf b s).rTs = s.rTs := rfl
@[simp] theorem setIbuf_rFlags (b : Bytes) : (setIbuf b s).rFlags = s.rFlags := rfl
@[simp] theorem setIbuf_rCsum (b : Bytes) : (setIbuf b s).rCsum = s.rCsum := rfl
@[simp] theorem setIbuf_crcResult (b : Bytes) : (setIbuf b s).crcResult = s.crcResult := rfl
@[simp] theorem setIbuf_ok (b : Bytes) : (setIbuf b s).ok = s.ok := rfl
@[simp] theorem setIbuf_err (b : Bytes) : (setIbuf b s).err = s.err := rfl
@[simp] theorem setIbuf_sid (b : Bytes) : (setIbuf b s).sid = s.sid := rfl
@[simp] theorem setIbuf_sidValid (b : Bytes) : (setIbuf b s).sidValid = s.sidValid := rfl
@[simp] theorem setIbuf_clkNow (b : Bytes) : (setIbuf b s).clkNow = s.clkNow := rfl
@[simp] theorem setIbuf_nonceIn (b : Bytes) : (setIbuf b s).nonceIn = s.nonceIn := rfl
@[simp] theorem setIbuf_pending (b : Bytes) : (setIbuf b s).pending = s.pending := rfl
@[simp] theorem setIbuf_txHist (b : Bytes) : (setIbuf b s).txHist = s.txHist := rfl
@[simp] theorem setIbuf_rxHist (b : Bytes) : (setIbuf b s).rxHist = s.rxHist := rfl
@[simp] theorem setIbuf_hostReads (b : Bytes) : (setIbuf b s).hostReads = s.hostReads := rfl

@[simp] theorem setObuf_fsm (b : Bytes) : (setObuf b s).fsm = s.fsm := rfl
@[simp] theorem setObuf_kaPending (b : Bytes) : (setObuf b s).kaPending = s.kaPending := rfl
@[simp] theorem setObuf_opType (b : Bytes) : (setObuf b s).opType = s.opType := rfl
@[simp] theorem setObuf_opStream (b : Bytes) : (setObuf b s).opStream = s.opStream := rfl
@[simp] theorem setObuf_opSeq (b : Bytes) : (setObuf b s).opSeq = s.opSeq := rfl
@[simp] theorem setObuf_opFlags (b : Bytes) : (setObuf b s).opFlags = s.opFlags := rfl
@[simp] theorem setObuf_ibuf (b : Bytes) : (setObuf b s).ibuf = s.ibuf := rfl
@[simp] theorem setObuf_obuf (b : Bytes) : (setObuf b s).obuf = b := rfl
@[simp] theorem setObuf_rType (b : Bytes) : (setObuf b s).rType = s.rType := rfl
@[simp] theorem setObuf_rStream (b : Bytes) : (setObuf b s).rStream = s.rStream := rfl
@[simp] theorem setObuf_rSeq (b : Bytes) : (setObuf b s).rSeq = s.rSeq := rfl
@[simp] theorem setObuf_rTs (b : Bytes) : (setObuf b s).rTs = s.rTs := rfl
@[simp] theorem setObuf_rFlags (b : Bytes) : (setObuf b s).rFlags = s.rFlags := rfl
@[simp] theorem setObuf_rCsum (b : Bytes) : (setObuf b s).rCsum = s.rCsum := rfl
@[simp] theorem setObuf_crcResult (b : Bytes) : (setObuf b s).crcResult = s.crcResult := rfl
@[simp] theorem setObuf_ok (b : Bytes) : (setObuf b s).ok = s.ok := rfl
@[simp] theorem setObuf_err (b : Bytes) : (setObuf b s).err = s.err := rfl
@[simp] theorem setObuf_sid (b : Bytes) : (setObuf b s).sid = s.sid := rfl
@[simp] theorem setObuf_sidValid (b : Bytes) : (setObuf b s).sidValid = s.sidValid := rfl
@[simp] theorem setObuf_clkNow (b : Bytes) : (setObuf b s).clkNow = s.clkNow := rfl
@[simp] theorem setObuf_nonceIn (b : Bytes) : (setObuf b s).nonceIn = s.nonceIn := rfl
@[simp] theorem setObuf_pending (b : Bytes) : (setObuf b s).pending = s.pending := rfl
@[simp] theorem setObuf_txHist (b : Bytes) : (setObuf b s).txHist = s.txHist := rfl
@[simp] theorem setObuf_rxHist (b : Bytes) : (setObuf b s).rxHist = s.rxHist := rfl
@[simp] theorem setObuf_hostReads (b : Bytes) : (setObuf b s).hostReads = s.hostReads := rfl

@[simp] theorem setCrcResult_fsm (v : BitVec 16) : (setCrcResult v s).fsm = s.fsm := rfl
@[simp] theorem setCrcResult_kaPending (v : BitVec 16) : (setCrcResult v s).kaPending = s.kaPending := rfl
@[simp] theorem setCrcResult_opType (v : BitVec 16) : (setCrcResult v s).opType = s.opType := rfl
@[simp] theorem setCrcResult_opStream (v : BitVec 16) : (setCrcResult v s).opStream = s.opStream := rfl
@[simp] theorem setCrcResult_opSeq (v : BitVec 16) : (setCrcResult v s).opSeq = s.opSeq := rfl
@[simp] theorem setCrcResult_opFlags (v : BitVec 16) : (setCrcResult v s).opFlags = s.opFlags := rfl
@[simp] theorem setCrcResult_ibuf (v : BitVec 16) : (setCrcResult v s).ibuf = s.ibuf := rfl
@[simp] theorem setCrcResult_obuf (v : BitVec 16) : (setCrcResult v s).obuf = s.obuf := rfl
@[simp] theorem setCrcResult_rType (v : BitVec 16) : (setCrcResult v s).rType = s.rType := rfl
@[simp] theorem setCrcResult_rStream (v : BitVec 16) : (setCrcResult v s).rStream = s.rStream := rfl
@[simp] theorem setCrcResult_rSeq (v : BitVec 16) : (setCrcResult v s).rSeq = s.rSeq := rfl
@[simp] theorem setCrcResult_rTs (v : BitVec 16) : (setCrcResult v s).rTs = s.rTs := rfl
@[simp] theorem setCrcResult_rFlags (v : BitVec 16) : (setCrcResult v s).rFlags = s.rFlags := rfl
@[simp] theorem setCrcResult_rCsum (v : BitVec 16) : (setCrcResult v s).rCsum = s.rCsum := rfl
@[simp] theorem setCrcResult_crcResult (v : BitVec 16) : (setCrcResult v s).crcResult = v := rfl
@[simp] theorem setCrcResult_ok (v : BitVec 16) : (setCrcResult v s).ok = s.ok := rfl
@[simp] theorem setCrcResult_err (v : BitVec 16) : (setCrcResult v s).err = s.err := rfl
@[simp] theorem setCrcResult_sid (v : BitVec 16) : (setCrcResult v s).sid = s.sid := rfl
@[simp] theorem setCrcResult_sidValid (v : BitVec 16) : (setCrcResult v s).sidValid = s.sidValid := rfl
@[simp] theorem setCrcResult_clkNow (v : BitVec 16) : (setCrcResult v s).clkNow = s.clkNow := rfl
@[simp] theorem setCrcResult_nonceIn (v : BitVec 16) : (setCrcResult v s).nonceIn = s.nonceIn := rfl
@[simp] theorem setCrcResult_pending (v : BitVec 16) : (setCrcResult v s).pending = s.pending := rfl
@[simp] theorem setCrcResult_txHist (v : BitVec 16) : (setCrcResult v s).txHist = s.txHist := rfl
@[simp] theorem setCrcResult_rxHist (v : BitVec 16) : (setCrcResult v s).rxHist = s.rxHist := rfl
@[simp] theorem setCrcResult_hostReads (v : BitVec 16) : (setCrcResult v s).hostReads = s.hostReads := rfl

@[simp] theorem setPorts_fsm (c : BitVec 64) (n : BitVec 256) : (setPorts c n s).fsm = s.fsm := rfl
@[simp] theorem setPorts_kaPending (c : BitVec 64) (n : BitVec 256) : (setPorts c n s).kaPending = s.kaPending := rfl
@[simp] theorem setPorts_opType (c : BitVec 64) (n : BitVec 256) : (setPorts c n s).opType = s.opType := rfl
@[simp] theorem setPorts_opStream (c : BitVec 64) (n : BitVec 256) : (setPorts c n s).opStream = s.opStream := rfl
@[simp] theorem setPorts_opSeq (c : BitVec 64) (n : BitVec 256) : (setPorts c n s).opSeq = s.opSeq := rfl
@[simp] theorem setPorts_opFlags (c : BitVec 64) (n : BitVec 256) : (setPorts c n s).opFlags = s.opFlags := rfl
@[simp] theorem setPorts_ibuf (c : BitVec 64) (n : BitVec 256) : (setPorts c n s).ibuf = s.ibuf := rfl
@[simp] theorem setPorts_obuf (c : BitVec 64) (n : BitVec 256) : (setPorts c n s).obuf = s.obuf := rfl
@[simp] theorem setPorts_rType (c : BitVec 64) (n : BitVec 256) : (setPorts c n s).rType = s.rType := rfl
@[simp] theorem setPorts_rStream (c : BitVec 64) (n : BitVec 256) : (setPorts c n s).rStream = s.rStream := rfl
@[simp] theorem setPorts_rSeq (c : BitVec 64) (n : BitVec 256) : (setPorts c n s).rSeq = s.rSeq := rfl
@[simp] theorem setPorts_rTs (c : BitVec 64) (n : BitVec 256) : (setPorts c n s).rTs = s.rTs := rfl
@[simp] theorem setPorts_rFlags (c : BitVec 64) (n : BitVec 256) : (setPorts c n s).rFlags = s.rFlags := rfl
@[simp] theorem setPorts_rCsum (c : BitVec 64) (n : BitVec 256) : (setPorts c n s).rCsum = s.rCsum := rfl
@[simp] theorem setPorts_crcResult (c : BitVec 64) (n : BitVec 256) : (setPorts c n s).crcResult = s.crcResult := rfl
@[simp] theorem setPorts_ok (c : BitVec 64) (n : BitVec 256) : (setPorts c n s).ok = s.ok := rfl
@[simp] theorem setPorts_err (c : BitVec 64) (n : BitVec 256) : (setPorts c n s).err = s.err := rfl
@[simp] theorem setPorts_sid (c : BitVec 64) (n : BitVec 256) : (setPorts c n s).sid = s.sid := rfl
@[simp] theorem setPorts_sidValid (c : BitVec 64) (n : BitVec 256) : (setPorts c n s).sidValid = s.sidValid := rfl
@[simp] theorem setPorts_clkNow (c : BitVec 64) (n : BitVec 256) : (setPorts c n s).clkNow = c := rfl
@[simp] theorem setPorts_nonceIn (c : BitVec 64) (n : BitVec 256) : (setPorts c n s).nonceIn = n := rfl
@[simp] theorem setPorts_pending (c : BitVec 64) (n : BitVec 256) : (setPorts c n s).pending = s.pending := rfl
@[simp] theorem setPorts_txHist (c : BitVec 64) (n : BitVec 256) : (setPorts c n s).txHist = s.txHist := rfl
@[simp] theorem setPorts_rxHist (c : BitVec 64) (n : BitVec 256) : (setPorts c n s).rxHist = s.rxHist := rfl
@[simp] theorem setPorts_hostReads (c : BitVec 64) (n : BitVec 256) : (setPorts c n s).hostReads = s.hostReads := rfl

@[simp] theorem setPending_fsm (es : List Event) : (setPending es s).fsm = s.fsm := rfl
@[simp] theorem setPending_kaPending (es : List Event) : (setPending es s).kaPending = s.kaPending := rfl
@[simp] theorem setPending_opType (es : List Event) : (setPending es s).opType = s.opType := rfl
@[simp] theorem setPending_opStream (es : List Event) : (setPending es s).opStream = s.opStream := rfl
@[simp] theorem setPending_opSeq (es : List Event) : (setPending es s).opSeq = s.opSeq := rfl
@[simp] theorem setPending_opFlags (es : List Event) : (setPending es s).opFlags = s.opFlags := rfl
@[simp] theorem setPending_ibuf (es : List Event) : (setPending es s).ibuf = s.ibuf := rfl
@[simp] theorem setPending_obuf (es : List Event) : (setPending es s).obuf = s.obuf := rfl
@[simp] theorem setPending_rType (es : List Event) : (setPending es s).rType = s.rType := rfl
@[simp] theorem setPending_rStream (es : List Event) : (setPending es s).rStream = s.rStream := rfl
@[simp] theorem setPending_rSeq (es : List Event) : (setPending es s).rSeq = s.rSeq := rfl
@[simp] theorem setPending_rTs (es : List Event) : (setPending es s).rTs = s.rTs := rfl
@[simp] theorem setPending_rFlags (es : List Event) : (setPending es s).rFlags = s.rFlags := rfl
@[simp] theorem setPending_rCsum (es : List Event) : (setPending es s).rCsum = s.rCsum := rfl
@[simp] theorem setPending_crcResult (es : List Event) : (setPending es s).crcResult = s.crcResult := rfl
@[simp] theorem setPending_ok (es : List Event) : (setPending es s).ok = s.ok := rfl
@[simp] theorem setPending_err (es : List Event) : (setPending es s).err = s.err := rfl
@[simp] theorem setPending_sid (es : List Event) : (setPending es s).sid = s.sid := rfl
@[simp] theorem setPending_sidValid (es : List Event) : (setPending es s).sidValid = s.sidValid := rfl
@[simp] theorem setPending_clkNow (es : List Event) : (setPending es s).clkNow = s.clkNow := rfl
@[simp] theorem setPending_nonceIn (es : List Event) : (setPending es s).nonceIn = s.nonceIn := rfl
@[simp] theorem setPending_pending (es : List Event) : (setPending es s).pending = es := rfl
@[simp] theorem setPending_txHist (es : List Event) : (setPending es s).txHist = s.txHist := rfl
@[simp] theorem setPending_rxHist (es : List Event) : (setPending es s).rxHist = s.rxHist := rfl
@[simp] theorem setPending_hostReads (es : List Event) : (setPending es s).hostReads = s.hostReads := rfl

@[simp] theorem giveHost_fsm (v : HostValue) : (giveHost v s).fsm = s.fsm := rfl
@[simp] theorem giveHost_kaPending (v : HostValue) : (giveHost v s).kaPending = s.kaPending := rfl
@[simp] theorem giveHost_opType (v : HostValue) : (giveHost v s).opType = s.opType := rfl
@[simp] theorem giveHost_opStream (v : HostValue) : (giveHost v s).opStream = s.opStream := rfl
@[simp] theorem giveHost_opSeq (v : HostValue) : (giveHost v s).opSeq = s.opSeq := rfl
@[simp] theorem giveHost_opFlags (v : HostValue) : (giveHost v s).opFlags = s.opFlags := rfl
@[simp] theorem giveHost_ibuf (v : HostValue) : (giveHost v s).ibuf = s.ibuf := rfl
@[simp] theorem giveHost_obuf (v : HostValue) : (giveHost v s).obuf = s.obuf := rfl
@[simp] theorem giveHost_rType (v : HostValue) : (giveHost v s).rType = s.rType := rfl
@[simp] theorem giveHost_rStream (v : HostValue) : (giveHost v s).rStream = s.rStream := rfl
@[simp] theorem giveHost_rSeq (v : HostValue) : (giveHost v s).rSeq = s.rSeq := rfl
@[simp] theorem giveHost_rTs (v : HostValue) : (giveHost v s).rTs = s.rTs := rfl
@[simp] theorem giveHost_rFlags (v : HostValue) : (giveHost v s).rFlags = s.rFlags := rfl
@[simp] theorem giveHost_rCsum (v : HostValue) : (giveHost v s).rCsum = s.rCsum := rfl
@[simp] theorem giveHost_crcResult (v : HostValue) : (giveHost v s).crcResult = s.crcResult := rfl
@[simp] theorem giveHost_ok (v : HostValue) : (giveHost v s).ok = s.ok := rfl
@[simp] theorem giveHost_err (v : HostValue) : (giveHost v s).err = s.err := rfl
@[simp] theorem giveHost_sid (v : HostValue) : (giveHost v s).sid = s.sid := rfl
@[simp] theorem giveHost_sidValid (v : HostValue) : (giveHost v s).sidValid = s.sidValid := rfl
@[simp] theorem giveHost_clkNow (v : HostValue) : (giveHost v s).clkNow = s.clkNow := rfl
@[simp] theorem giveHost_nonceIn (v : HostValue) : (giveHost v s).nonceIn = s.nonceIn := rfl
@[simp] theorem giveHost_pending (v : HostValue) : (giveHost v s).pending = s.pending := rfl
@[simp] theorem giveHost_txHist (v : HostValue) : (giveHost v s).txHist = s.txHist := rfl
@[simp] theorem giveHost_rxHist (v : HostValue) : (giveHost v s).rxHist = s.rxHist := rfl
@[simp] theorem giveHost_hostReads (v : HostValue) : (giveHost v s).hostReads = s.hostReads ++ [v] := rfl

@[simp] theorem establish_fsm (i : Bytes) : (establish i s).fsm = .established := rfl
@[simp] theorem establish_kaPending (i : Bytes) : (establish i s).kaPending = s.kaPending := rfl
@[simp] theorem establish_opType (i : Bytes) : (establish i s).opType = s.opType := rfl
@[simp] theorem establish_opStream (i : Bytes) : (establish i s).opStream = s.opStream := rfl
@[simp] theorem establish_opSeq (i : Bytes) : (establish i s).opSeq = s.opSeq := rfl
@[simp] theorem establish_opFlags (i : Bytes) : (establish i s).opFlags = s.opFlags := rfl
@[simp] theorem establish_ibuf (i : Bytes) : (establish i s).ibuf = s.ibuf := rfl
@[simp] theorem establish_obuf (i : Bytes) : (establish i s).obuf = s.obuf := rfl
@[simp] theorem establish_rType (i : Bytes) : (establish i s).rType = s.rType := rfl
@[simp] theorem establish_rStream (i : Bytes) : (establish i s).rStream = s.rStream := rfl
@[simp] theorem establish_rSeq (i : Bytes) : (establish i s).rSeq = s.rSeq := rfl
@[simp] theorem establish_rTs (i : Bytes) : (establish i s).rTs = s.rTs := rfl
@[simp] theorem establish_rFlags (i : Bytes) : (establish i s).rFlags = s.rFlags := rfl
@[simp] theorem establish_rCsum (i : Bytes) : (establish i s).rCsum = s.rCsum := rfl
@[simp] theorem establish_crcResult (i : Bytes) : (establish i s).crcResult = s.crcResult := rfl
@[simp] theorem establish_ok (i : Bytes) : (establish i s).ok = true := rfl
@[simp] theorem establish_err (i : Bytes) : (establish i s).err = 0#8 := rfl
@[simp] theorem establish_sid (i : Bytes) : (establish i s).sid = i := rfl
@[simp] theorem establish_sidValid (i : Bytes) : (establish i s).sidValid = true := rfl
@[simp] theorem establish_clkNow (i : Bytes) : (establish i s).clkNow = s.clkNow := rfl
@[simp] theorem establish_nonceIn (i : Bytes) : (establish i s).nonceIn = s.nonceIn := rfl
@[simp] theorem establish_pending (i : Bytes) : (establish i s).pending = s.pending := rfl
@[simp] theorem establish_txHist (i : Bytes) : (establish i s).txHist = s.txHist := rfl
@[simp] theorem establish_rxHist (i : Bytes) : (establish i s).rxHist = s.rxHist := rfl
@[simp] theorem establish_hostReads (i : Bytes) : (establish i s).hostReads = s.hostReads := rfl

@[simp] theorem writeOperand_fsm (n : BitVec 8) (v : BitVec 64) : (writeOperand n v s).fsm = s.fsm := rfl
@[simp] theorem writeOperand_kaPending (n : BitVec 8) (v : BitVec 64) : (writeOperand n v s).kaPending = s.kaPending := rfl
@[simp] theorem writeOperand_opType (n : BitVec 8) (v : BitVec 64) : (writeOperand n v s).opType = if n = 0x00#8 then v.setWidth 8 else s.opType := rfl
@[simp] theorem writeOperand_opStream (n : BitVec 8) (v : BitVec 64) : (writeOperand n v s).opStream = if n = 0x01#8 then v.setWidth 16 else s.opStream := rfl
@[simp] theorem writeOperand_opSeq (n : BitVec 8) (v : BitVec 64) : (writeOperand n v s).opSeq = if n = 0x02#8 then v else s.opSeq := rfl
@[simp] theorem writeOperand_opFlags (n : BitVec 8) (v : BitVec 64) : (writeOperand n v s).opFlags = if n = 0x03#8 then v.setWidth 8 else s.opFlags := rfl
@[simp] theorem writeOperand_ibuf (n : BitVec 8) (v : BitVec 64) : (writeOperand n v s).ibuf = s.ibuf := rfl
@[simp] theorem writeOperand_obuf (n : BitVec 8) (v : BitVec 64) : (writeOperand n v s).obuf = s.obuf := rfl
@[simp] theorem writeOperand_rType (n : BitVec 8) (v : BitVec 64) : (writeOperand n v s).rType = s.rType := rfl
@[simp] theorem writeOperand_rStream (n : BitVec 8) (v : BitVec 64) : (writeOperand n v s).rStream = s.rStream := rfl
@[simp] theorem writeOperand_rSeq (n : BitVec 8) (v : BitVec 64) : (writeOperand n v s).rSeq = s.rSeq := rfl
@[simp] theorem writeOperand_rTs (n : BitVec 8) (v : BitVec 64) : (writeOperand n v s).rTs = s.rTs := rfl
@[simp] theorem writeOperand_rFlags (n : BitVec 8) (v : BitVec 64) : (writeOperand n v s).rFlags = s.rFlags := rfl
@[simp] theorem writeOperand_rCsum (n : BitVec 8) (v : BitVec 64) : (writeOperand n v s).rCsum = s.rCsum := rfl
@[simp] theorem writeOperand_crcResult (n : BitVec 8) (v : BitVec 64) : (writeOperand n v s).crcResult = s.crcResult := rfl
@[simp] theorem writeOperand_ok (n : BitVec 8) (v : BitVec 64) : (writeOperand n v s).ok = s.ok := rfl
@[simp] theorem writeOperand_err (n : BitVec 8) (v : BitVec 64) : (writeOperand n v s).err = s.err := rfl
@[simp] theorem writeOperand_sid (n : BitVec 8) (v : BitVec 64) : (writeOperand n v s).sid = s.sid := rfl
@[simp] theorem writeOperand_sidValid (n : BitVec 8) (v : BitVec 64) : (writeOperand n v s).sidValid = s.sidValid := rfl
@[simp] theorem writeOperand_clkNow (n : BitVec 8) (v : BitVec 64) : (writeOperand n v s).clkNow = s.clkNow := rfl
@[simp] theorem writeOperand_nonceIn (n : BitVec 8) (v : BitVec 64) : (writeOperand n v s).nonceIn = s.nonceIn := rfl
@[simp] theorem writeOperand_pending (n : BitVec 8) (v : BitVec 64) : (writeOperand n v s).pending = s.pending := rfl
@[simp] theorem writeOperand_txHist (n : BitVec 8) (v : BitVec 64) : (writeOperand n v s).txHist = s.txHist := rfl
@[simp] theorem writeOperand_rxHist (n : BitVec 8) (v : BitVec 64) : (writeOperand n v s).rxHist = s.rxHist := rfl
@[simp] theorem writeOperand_hostReads (n : BitVec 8) (v : BitVec 64) : (writeOperand n v s).hostReads = s.hostReads := rfl

@[simp] theorem resetCore_fsm : (resetCore s).fsm = State.reset.fsm := rfl
@[simp] theorem resetCore_kaPending : (resetCore s).kaPending = State.reset.kaPending := rfl
@[simp] theorem resetCore_opType : (resetCore s).opType = State.reset.opType := rfl
@[simp] theorem resetCore_opStream : (resetCore s).opStream = State.reset.opStream := rfl
@[simp] theorem resetCore_opSeq : (resetCore s).opSeq = State.reset.opSeq := rfl
@[simp] theorem resetCore_opFlags : (resetCore s).opFlags = State.reset.opFlags := rfl
@[simp] theorem resetCore_ibuf : (resetCore s).ibuf = State.reset.ibuf := rfl
@[simp] theorem resetCore_obuf : (resetCore s).obuf = State.reset.obuf := rfl
@[simp] theorem resetCore_rType : (resetCore s).rType = State.reset.rType := rfl
@[simp] theorem resetCore_rStream : (resetCore s).rStream = State.reset.rStream := rfl
@[simp] theorem resetCore_rSeq : (resetCore s).rSeq = State.reset.rSeq := rfl
@[simp] theorem resetCore_rTs : (resetCore s).rTs = State.reset.rTs := rfl
@[simp] theorem resetCore_rFlags : (resetCore s).rFlags = State.reset.rFlags := rfl
@[simp] theorem resetCore_rCsum : (resetCore s).rCsum = State.reset.rCsum := rfl
@[simp] theorem resetCore_crcResult : (resetCore s).crcResult = State.reset.crcResult := rfl
@[simp] theorem resetCore_ok : (resetCore s).ok = State.reset.ok := rfl
@[simp] theorem resetCore_err : (resetCore s).err = State.reset.err := rfl
@[simp] theorem resetCore_sid : (resetCore s).sid = State.reset.sid := rfl
@[simp] theorem resetCore_sidValid : (resetCore s).sidValid = State.reset.sidValid := rfl
@[simp] theorem resetCore_clkNow : (resetCore s).clkNow = s.clkNow := rfl
@[simp] theorem resetCore_nonceIn : (resetCore s).nonceIn = s.nonceIn := rfl
@[simp] theorem resetCore_pending : (resetCore s).pending = s.pending := rfl
@[simp] theorem resetCore_txHist : (resetCore s).txHist = s.txHist := rfl
@[simp] theorem resetCore_rxHist : (resetCore s).rxHist = s.rxHist := rfl
@[simp] theorem resetCore_hostReads : (resetCore s).hostReads = s.hostReads := rfl

end Sys2Proof.Machine
end

