-- ==== Sys2Proof/Laws/Ops.lean ====
section
/-!
SUPPORT. What the shared operations can do: issuing a command, an error's effect, decoding, receiving a frame. Each says
once what its operation can answer; later proofs cite it and do not unfold the operation.
-/

namespace Sys2Proof.Machine

theorem busy_iff (s : State) : s.busy = true ↔ s.fsm = .helloSent ∨ s.kaPending = true := by
  simp [State.busy]

theorem not_busy_iff (s : State) : s.busy = false ↔ s.fsm ≠ .helloSent ∧ s.kaPending = false := by
  simp [State.busy]

/-- A command issued while the core is not busy is accepted. -/
theorem issue_idle (rule : State → State) (s : State) (h : s.busy = false) :
    issue rule s = .next (rule (clearOutcome s)) := by simp [issue, h]

/-- A command issued while the core is busy is not accepted, and nothing changes. -/
theorem issue_busy (rule : State → State) (s : State) (h : s.busy = true) : issue rule s = .next s := by
  simp [issue, h]

/-- Everything the issue of a command can answer. -/
theorem issue_cases (rule : State → State) {s t : State} (h : issue rule s = .next t) :
    (s.busy = true ∧ t = s) ∨ (s.busy = false ∧ t = rule (clearOutcome s)) := by
  cases hb : s.busy with
  | true => exact .inl ⟨rfl, by simpa [issue, hb] using h.symm⟩
  | false => exact .inr ⟨rfl, by simpa [issue, hb] using h.symm⟩

@[simp] theorem clearOutcome_busy (s : State) : (clearOutcome s).busy = s.busy := rfl

/-- At command acceptance an error sets OK and ERR and nothing else (60_exceptions.md R158, R160). -/
theorem raise_not_busy (e : ErrorCode) (s : State) (h : s.busy = false) :
    raise e s = { s with ok := false, err := e.code } := by
  obtain ⟨h1, h2⟩ := (not_busy_iff s).1 h
  simp [raise, h1, h2]

/-- In HelloSent an error ends the attempt (60_exceptions.md R160). -/
theorem raise_helloSent (e : ErrorCode) (s : State) (h : s.fsm = .helloSent) :
    raise e s = { s with ok := false, err := e.code, fsm := .failed } := by
  simp [raise, h]

/-- In a keepalive wait an error ends the wait (60_exceptions.md R160). -/
theorem raise_keepalive (e : ErrorCode) (s : State) (h : s.fsm ≠ .helloSent) :
    raise e s = { s with ok := false, err := e.code, kaPending := false } := by
  simp [raise, h]

/-- Every error has a number from 1 to 8 (60_exceptions.md R150). -/
theorem code_range (e : ErrorCode) : e.code ≠ 0#8 ∧ e.code.toNat ≤ 8 := by
  cases e <;> decide

/-- Everything `decode` can answer. -/
theorem decodeFrame_cases (p : Params) (f : Bytes) :
    (f.length < headerLen ∧ decodeFrame p f = .err .tooShort)
    ∨ (headerLen ≤ f.length ∧ u16be f 0 ≠ p.protocolId ∧ decodeFrame p f = .err .badMagic)
    ∨ (headerLen ≤ f.length ∧ u16be f 0 = p.protocolId ∧ crc16 (checksumDomain f) ≠ u16be f 22
        ∧ decodeFrame p f = .err .checksumMismatch)
    ∨ (headerLen ≤ f.length ∧ u16be f 0 = p.protocolId ∧ crc16 (checksumDomain f) = u16be f 22
        ∧ decodeFrame p f = .ok (readPacket f)) := by
  unfold decodeFrame
  by_cases h1 : f.length < headerLen
  · exact .inl ⟨h1, by simp [h1]⟩
  have h1' : headerLen ≤ f.length := by omega
  by_cases h2 : u16be f 0 = p.protocolId
  · by_cases h3 : crc16 (checksumDomain f) = u16be f 22
    · exact .inr (.inr (.inr ⟨h1', h2, h3, by simp [h1, h2, h3]⟩))
    · exact .inr (.inr (.inl ⟨h1', h2, h3, by simp [h1, h2, h3]⟩))
  · exact .inr (.inl ⟨h1', h2, by simp [h1, h2]⟩)

/-- A packet that `decode` returns holds the frame's bytes from offset 24 as payload (41_codec.md R91). -/
theorem payload_of_decoded {p : Params} {f : Bytes} {pk : Packet} (h : decodeFrame p f = .ok pk) :
    headerLen ≤ f.length ∧ pk.payload = f.drop headerLen := by
  rcases decodeFrame_cases p f with ⟨_, h'⟩ | ⟨_, _, h'⟩ | ⟨_, _, _, h'⟩ | ⟨hl, _, _, h'⟩ <;> rw [h'] at h
  · cases h
  · cases h
  · cases h
  · cases h; exact ⟨hl, rfl⟩

/-- Everything the receive event RxFrame can answer (44_interfaces.md R138, R139). -/
theorem receiveFrame_cases (p : Params) (b : Bytes) {s t : State} (h : receiveFrame p b s = .next t) :
    (s.busy = false ∧ t = s) ∨ (s.busy = true ∧ b.length ≤ p.maxFrame ∧ t = acceptFrame p b s) := by
  unfold receiveFrame at h
  cases hb : s.busy with
  | false => simp [hb] at h; exact .inl ⟨rfl, h.symm⟩
  | true =>
    simp only [hb, Bool.true_eq_false, if_false] at h
    split at h
    · cases h
    · simp at h; exact .inr ⟨rfl, by omega, h.symm⟩

/-- Everything an accepted frame can do in HelloSent (42_handshake.md R103, R104). -/
theorem helloReply_cases (p : Params) (b : Bytes) (s : State) :
    (∃ e, decodeFrame p b = .err e ∧ helloReply p b s = raise e s)
    ∨ (∃ pk, decodeFrame p b = .ok pk ∧ pk.packetType ≠ 0x04#8
        ∧ helloReply p b s = raise .unexpectedPacketType (latch pk s))
    ∨ (∃ pk, decodeFrame p b = .ok pk ∧ pk.packetType = 0x04#8
        ∧ (∀ i, p.ackParse pk.payload = some i → ¬ i.length ≤ p.sidMax)
        ∧ helloReply p b s = raise .ackMalformed (latch pk s))
    ∨ (∃ pk i, decodeFrame p b = .ok pk ∧ pk.packetType = 0x04#8 ∧ p.ackParse pk.payload = some i
        ∧ i.length ≤ p.sidMax ∧ helloReply p b s = establish i (latch pk s)) := by
  unfold helloReply
  cases hd : decodeFrame p b with
  | err e => exact .inl ⟨e, rfl, rfl⟩
  | ok pk =>
    by_cases ht : pk.packetType = 0x04#8
    · cases ha : p.ackParse pk.payload with
      | none => exact .inr (.inr (.inl ⟨pk, rfl, ht, by simp [ha], by simp [ht, acceptAck, ha]⟩))
      | some i =>
        by_cases hi : i.length ≤ p.sidMax
        · exact .inr (.inr (.inr ⟨pk, i, rfl, ht, ha, hi, by simp [ht, acceptAck, ha, hi]⟩))
        · refine .inr (.inr (.inl ⟨pk, rfl, ht, ?_, by simp [ht, acceptAck, ha, hi]⟩))
          intro j hj; rw [ha] at hj; cases hj; exact hi
    · exact .inr (.inl ⟨pk, rfl, ht, by simp [ht]⟩)

/-- Everything an accepted frame can do in a keepalive wait (43_liveness.md R116). -/
theorem keepaliveReply_cases (p : Params) (b : Bytes) (s : State) :
    (∃ e, decodeFrame p b = .err e ∧ keepaliveReply p b s = raise e s)
    ∨ (∃ pk, decodeFrame p b = .ok pk ∧ pk.packetType ≠ 0x05#8
        ∧ keepaliveReply p b s = raise .unexpectedPacketType (latch pk s))
    ∨ (∃ pk, decodeFrame p b = .ok pk ∧ pk.packetType = 0x05#8
        ∧ keepaliveReply p b s = setKaPending false (succeed (latch pk s))) := by
  unfold keepaliveReply
  cases hd : decodeFrame p b with
  | err e => exact .inl ⟨e, rfl, rfl⟩
  | ok pk =>
    by_cases ht : pk.packetType = 0x05#8
    · exact .inr (.inr ⟨pk, rfl, ht, by simp [ht]⟩)
    · exact .inr (.inl ⟨pk, rfl, ht, by simp [ht]⟩)

/-- Everything an accepted receive event RxFrame can do: in HelloSent it fails, with or without a latched packet, or
completes the handshake; in a keepalive wait it fails, with or without a latched packet, or succeeds. -/
theorem acceptFrame_cases (p : Params) (b : Bytes) (s : State) :
    (∃ e, decodeFrame p b = .err e ∧ acceptFrame p b s = raise e (recordRx (.frame b) s))
    ∨ (∃ e pk, decodeFrame p b = .ok pk
        ∧ (s.fsm = .helloSent → pk.packetType = 0x04#8 → ∀ i, p.ackParse pk.payload = some i → ¬ i.length ≤ p.sidMax)
        ∧ acceptFrame p b s = raise e (latch pk (recordRx (.frame b) s)))
    ∨ (s.fsm = .helloSent ∧ ∃ pk i, decodeFrame p b = .ok pk ∧ pk.packetType = 0x04#8
        ∧ p.ackParse pk.payload = some i ∧ i.length ≤ p.sidMax
        ∧ acceptFrame p b s = establish i (latch pk (recordRx (.frame b) s)))
    ∨ (s.fsm ≠ .helloSent ∧ ∃ pk, decodeFrame p b = .ok pk ∧ pk.packetType = 0x05#8
        ∧ acceptFrame p b s = setKaPending false (succeed (latch pk (recordRx (.frame b) s)))) := by
  unfold acceptFrame
  split
  · rename_i hf
    rcases helloReply_cases p b (recordRx (.frame b) s) with
      ⟨e, hd, hr⟩ | ⟨pk, hd, ht, hr⟩ | ⟨pk, hd, _, hi, hr⟩ | ⟨pk, i, hd, ht, ha, hi, hr⟩ <;> rw [hr]
    · exact .inl ⟨e, hd, rfl⟩
    · exact .inr (.inl ⟨_, pk, hd, fun _ h => absurd h ht, rfl⟩)
    · exact .inr (.inl ⟨_, pk, hd, fun _ _ => hi, rfl⟩)
    · exact .inr (.inr (.inl ⟨hf, pk, i, hd, ht, ha, hi, rfl⟩))
  · rename_i hf
    rcases keepaliveReply_cases p b (recordRx (.frame b) s) with
      ⟨e, hd, hr⟩ | ⟨pk, hd, _, hr⟩ | ⟨pk, hd, ht, hr⟩ <;> rw [hr]
    · exact .inl ⟨e, hd, rfl⟩
    · exact .inr (.inl ⟨_, pk, hd, fun h => absurd h hf, rfl⟩)
    · exact .inr (.inr (.inr ⟨hf, pk, hd, ht, rfl⟩))

/-- The checksum domain of a frame as it stands on the wire. -/
theorem checksumDomain_wire (ty : Byte) (h : Header) (pl : Bytes) :
    checksumDomain (wire ty h pl)
      = hdr22 h.protocolId ty h.streamId h.sequenceNumber h.timestamp h.flags ++ pl := by
  simp [checksumDomain, wire, Header.write, hdr22, be16, be64, headerLen]

/-- The fields of a frame as it stands on the wire. -/
theorem readPacket_wire (ty : Byte) (h : Header) (pl : Bytes) :
    readPacket (wire ty h pl)
      = ⟨h.protocolId, ty, h.streamId, h.sequenceNumber, h.timestamp, h.flags, h.checksum, pl⟩ := by
  have hr := header_read_wire ty h pl
  simp only [Header.read] at hr
  simp only [readPacket, type_of_wire, payload_of_wire]
  cases h
  simp only [Header.mk.injEq] at hr
  simp [hr]

/-- `decode` of a frame as it stands on the wire: its magic, then its checksum. -/
theorem decodeFrame_wire (p : Params) (ty : Byte) (h : Header) (pl : Bytes) :
    decodeFrame p (wire ty h pl) =
      if h.protocolId ≠ p.protocolId then .err .badMagic
      else if csum h.protocolId ty h.streamId h.sequenceNumber h.timestamp h.flags pl ≠ h.checksum then
        .err .checksumMismatch
      else .ok ⟨h.protocolId, ty, h.streamId, h.sequenceNumber, h.timestamp, h.flags, h.checksum, pl⟩ := by
  have h1 := congrArg Packet.protocolId (readPacket_wire ty h pl)
  have h2 := congrArg Packet.checksum (readPacket_wire ty h pl)
  simp only [readPacket] at h1 h2
  unfold decodeFrame
  rw [if_neg (by simp [headerLen]), checksumDomain_wire, h1, h2, readPacket_wire]
  rfl

end Sys2Proof.Machine
end

