-- ==== Sys2Proof/Laws/Memory.lean ====
section
/-!
SUPPORT. The buffers keep their form: every operation that writes IBUF, OBUF or SID keeps `State.buffersWf`, and the
machine has it at reset (10_state.md R15, R16, R21). The operations that write none of the three keep it because the
three fields are the same (`buffersWf_of_eq`).
-/

namespace Sys2Proof.Machine

theorem memory_wf_iff (n : Nat) (b : Bytes) : Memory.wf n b = true ↔ b.length ≤ n := by simp [Memory.wf]

theorem buffersWf_iff (p : Params) (s : State) :
    s.buffersWf p = true ↔ s.ibuf.length ≤ p.maxFrame ∧ s.obuf.length ≤ p.maxFrame ∧ s.sid.length ≤ p.sidMax := by
  simp [State.buffersWf, memory_wf_iff, and_assoc]

theorem reset_buffersWf (p : Params) : State.reset.buffersWf p = true := by
  simp [buffersWf_iff, State.reset]

/-- An operation that writes none of the three buffers keeps their form. -/
theorem buffersWf_of_eq (p : Params) {s t : State} (hi : t.ibuf = s.ibuf) (ho : t.obuf = s.obuf) (hs : t.sid = s.sid)
    (h : s.buffersWf p = true) : t.buffersWf p = true := by
  rw [buffersWf_iff] at *; rw [hi, ho, hs]; exact h

theorem raise_buffersWf (p : Params) (e : ErrorCode) {s : State} (h : s.buffersWf p = true) :
    (raise e s).buffersWf p = true := buffersWf_of_eq p rfl rfl rfl h

theorem resetCore_buffersWf (p : Params) (s : State) : (resetCore s).buffersWf p = true := reset_buffersWf p

/-- LoadIBUF keeps the form: what is too long has no step. -/
theorem loadIbuf_buffersWf (p : Params) (b : Bytes) {s t : State} (h : s.buffersWf p = true)
    (ht : loadIbuf p b s = .next t) : t.buffersWf p = true := by
  unfold loadIbuf at ht
  split at ht
  · cases ht
  · cases ht
    rw [buffersWf_iff] at *
    exact ⟨by simp; omega, h.2.1, h.2.2⟩

/-- A frame that ENCODE builds of a payload that fits, fits. -/
theorem encodeFrame_length (p : Params) (ty : Byte) (sid : BitVec 16) (seq : BitVec 64) (fl : Byte) (pl : Bytes)
    (now : BitVec 64) : (encodeFrame p ty sid seq fl pl now).length = headerLen + pl.length := by
  simp [encodeFrame, frame, hdr22, headerLen]
  omega

theorem encodeRule_buffersWf (p : Params) {s : State} (h : s.buffersWf p = true) :
    (encodeRule p s).buffersWf p = true := by
  unfold encodeRule
  split
  · exact raise_buffersWf p _ h
  · rw [buffersWf_iff] at *
    exact ⟨h.1, by simp [encodeFrame_length, Params.maxFrame]; omega, h.2.2⟩

/-- Latching the packet of a frame that fits keeps the form. -/
theorem latch_buffersWf (p : Params) {f : Bytes} {pk : Packet} {s : State} (hd : decodeFrame p f = .ok pk)
    (hf : f.length ≤ p.maxFrame) (h : s.buffersWf p = true) : (latch pk s).buffersWf p = true := by
  rw [buffersWf_iff] at *
  obtain ⟨_, hp⟩ := payload_of_decoded hd
  exact ⟨h.1, by simp [hp]; omega, h.2.2⟩

theorem decodeRule_buffersWf (p : Params) {s : State} (h : s.buffersWf p = true) :
    (decodeRule p s).buffersWf p = true := by
  unfold decodeRule
  split
  · exact raise_buffersWf p _ h
  · rename_i pk hd
    exact buffersWf_of_eq p (s := latch pk s) rfl rfl rfl (latch_buffersWf p hd ((buffersWf_iff p s).1 h).1 h)

theorem establish_buffersWf (p : Params) {i : Bytes} {s : State} (hi : i.length ≤ p.sidMax)
    (h : s.buffersWf p = true) : (establish i s).buffersWf p = true := by
  rw [buffersWf_iff] at *
  exact ⟨h.1, h.2.1, hi⟩

/-- An accepted frame that fits keeps the form, in either wait. -/
theorem acceptFrame_buffersWf (p : Params) (b : Bytes) {s : State} (hb : b.length ≤ p.maxFrame)
    (h : s.buffersWf p = true) : (acceptFrame p b s).buffersWf p = true := by
  have h' : (recordRx (.frame b) s).buffersWf p = true := buffersWf_of_eq p rfl rfl rfl h
  unfold acceptFrame
  split
  · rcases helloReply_cases p b (recordRx (.frame b) s) with
      ⟨e, _, hr⟩ | ⟨pk, hd, _, hr⟩ | ⟨pk, hd, _, _, hr⟩ | ⟨pk, i, hd, _, _, hi, hr⟩ <;> rw [hr]
    · exact raise_buffersWf p e h'
    · exact raise_buffersWf p _ (latch_buffersWf p hd hb h')
    · exact raise_buffersWf p _ (latch_buffersWf p hd hb h')
    · exact establish_buffersWf p hi (latch_buffersWf p hd hb h')
  · rcases keepaliveReply_cases p b (recordRx (.frame b) s) with
      ⟨e, _, hr⟩ | ⟨pk, hd, _, hr⟩ | ⟨pk, hd, _, hr⟩ <;> rw [hr]
    · exact raise_buffersWf p e h'
    · exact raise_buffersWf p _ (latch_buffersWf p hd hb h')
    · exact buffersWf_of_eq p (s := latch pk (recordRx (.frame b) s)) rfl rfl rfl (latch_buffersWf p hd hb h')

end Sys2Proof.Machine
end

