-- ==== Sys2Proof/Laws/Payload.lean ====
section
/-!
SUPPORT. What the default payload functions give: the digits, the decimal text, and the parts of the parser.
-/

namespace Sys2Proof.Machine

/-- Two digits a byte. -/
@[simp] theorem hexBytes_length (bs : Bytes) : (hexBytes bs).length = 2 * bs.length := by
  induction bs with
  | nil => rfl
  | cons b bs ih => simp [hexBytes, ih]; omega

/-- The two digits of byte `k`, the high nibble first. -/
theorem hexBytes_getD (bs : Bytes) (k : Nat) (hk : k < bs.length) :
    (hexBytes bs).getD (2 * k) 0#8 = hexDigit ((bs.getD k 0#8).toNat / 16)
    ∧ (hexBytes bs).getD (2 * k + 1) 0#8 = hexDigit ((bs.getD k 0#8).toNat % 16) := by
  induction bs generalizing k with
  | nil => simp at hk
  | cons b bs ih =>
    cases k with
    | zero => simp [hexBytes]
    | succ k =>
      have := ih k (by simpa using hk)
      rw [show 2 * (k + 1) = 2 * k + 1 + 1 by omega]
      simpa [hexBytes] using this

/-- Everything the decimal text of a number is: some digits, no leading zero, and the number they stand for. -/
theorem decimalFuel_spec (k n : Nat) (h : n < k) :
    decimalFuel k n ≠ [] ∧ (∀ c ∈ decimalFuel k n, 0x30 ≤ c.toNat ∧ c.toNat ≤ 0x39)
    ∧ ((decimalFuel k n).head? = some 0x30#8 → decimalFuel k n = [0x30#8])
    ∧ (decimalFuel k n).foldl (fun n c => 10 * n + (c.toNat - 0x30)) 0 = n
    ∧ ((decimalFuel k n).head? = some 0x30#8 → n = 0) := by
  induction k generalizing n with
  | zero => omega
  | succ k ih =>
    unfold decimalFuel
    split
    · rename_i hn
      interval_cases n <;> simp
    · rename_i hn
      obtain ⟨h1, h2, h3, h4, h5⟩ := ih (n / 10) (by omega)
      have hd : (BitVec.ofNat 8 (0x30 + n % 10)).toNat = 0x30 + n % 10 := by simp; omega
      have hh : (decimalFuel k (n / 10) ++ [BitVec.ofNat 8 (48 + n % 10)]).head? = (decimalFuel k (n / 10)).head? := by
        cases hq : decimalFuel k (n / 10) <;> simp_all
      refine ⟨by simp, ?_, ?_, ?_, ?_⟩
      · intro c hc
        simp only [List.mem_append, List.mem_singleton] at hc
        rcases hc with hc | rfl
        · exact h2 c hc
        · rw [hd]; omega
      · rw [hh]; intro h; have := h5 h; omega
      · rw [List.foldl_append, h4]; simp only [List.foldl, hd]; omega
      · rw [hh]; intro h; have := h5 h; omega

/-- `expect c` skips white space and one `c`. -/
theorem expect_iff (c : Byte) (hc : isSpace c = false) (bs r : Bytes) :
    expect c bs = some r ↔ ∃ w, bs = w ++ [c] ++ r ∧ ∀ x ∈ w, isSpace x = true := by
  unfold expect
  constructor
  · intro h
    split at h
    · cases h
    · rename_i b rest hd
      split at h
      · rename_i hb; cases h; subst hb
        refine ⟨bs.takeWhile isSpace, ?_, ?_⟩
        · conv_lhs => rw [← List.takeWhile_append_dropWhile (p := isSpace) (l := bs), hd]
          simp
        · intro x hx; exact List.mem_takeWhile_imp hx
      · cases h
  · rintro ⟨w, rfl, hw⟩
    have : (w ++ [c] ++ r).dropWhile isSpace = c :: r := by
      rw [List.append_assoc, List.dropWhile_append_of_pos hw]
      simp [hc]
    rw [this]; simp

/-- `untilQuote` gives what stands before the first quote. -/
theorem untilQuote_iff (bs r : Bytes) :
    untilQuote bs = some r ↔ ∃ after, bs = r ++ [0x22#8] ++ after ∧ 0x22#8 ∉ r := by
  induction bs generalizing r with
  | nil => simp [untilQuote]
  | cons b bs ih =>
    unfold untilQuote
    split
    · subst_vars
      constructor
      · rintro ⟨⟩; exact ⟨bs, by simp, by simp⟩
      · rintro ⟨after, h, hn⟩
        cases r with
        | nil => rfl
        | cons x r => simp at h; simp [← h.1] at hn
    · rename_i hb
      cases r with
      | nil =>
        simp; tauto
      | cons x r =>
        simp only [Option.map_eq_some_iff, ih, List.cons_append, List.cons.injEq, List.mem_cons, not_or]
        constructor
        · rintro ⟨a, ⟨af, h1, h2⟩, rfl, rfl⟩; exact ⟨af, ⟨rfl, h1⟩, fun h => hb h.symm, h2⟩
        · rintro ⟨af, ⟨rfl, h1⟩, _, h2⟩; exact ⟨r, ⟨af, h1, h2⟩, rfl, rfl⟩

/-- `afterKey` gives what follows the first place of the key. -/
theorem afterKey_iff (p r : Bytes) :
    afterKey p = some r ↔
    ∃ before, p = before ++ sessionKey ++ r ∧ ∀ n, n < before.length → ¬ sessionKey <+: p.drop n := by
  induction p generalizing r with
  | nil => simp [afterKey, sessionKey]
  | cons b bs ih =>
    unfold afterKey
    by_cases hk : sessionKey.isPrefixOf (b :: bs) = true
    · rw [if_pos hk]
      have hk' := hk
      rw [List.isPrefixOf_iff_prefix] at hk'
      constructor
      · intro h
        cases h
        refine ⟨[], ?_, by simp⟩
        obtain ⟨t, ht⟩ := hk'
        rw [← ht]; simp
      · rintro ⟨before, h1, h2⟩
        cases before with
        | nil => rw [h1]; simp
        | cons x xs => exact absurd hk' (by simpa using h2 0 (by simp))
    · rw [if_neg hk, ih]
      have hk' : ¬ sessionKey <+: b :: bs := by rwa [List.isPrefixOf_iff_prefix] at hk
      constructor
      · rintro ⟨before, h1, h2⟩
        refine ⟨b :: before, by simp [h1], ?_⟩
        intro n hn
        cases n with
        | zero => simpa using hk'
        | succ n => simpa using h2 n (by simpa using hn)
      · rintro ⟨before, h1, h2⟩
        cases before with
        | nil => exact absurd ⟨r, by simpa using h1.symm⟩ hk'
        | cons x xs =>
          simp at h1
          refine ⟨xs, by simpa using h1.2, ?_⟩
          intro n hn
          simpa using h2 (n+1) (by simpa using hn)

end Sys2Proof.Machine
end

