-- ==== Sys2Proof/Laws/PerInstr.lean ====
section
/-!
SUPPORT. Statements for all instructions, made per instruction. `WordLength`: the encoding of an instruction arrives at
its port and has its length, one byte for a command, 24 header bytes and the payload for a frame.
-/

namespace Sys2Proof.Laws.WordLength

open Machine

/-- The payload of an instruction, if it is a frame row. -/
def payloadOf : Instr → Option Bytes
  | .crc16 => none
  | .encode => none
  | .decode => none
  | .connect => none
  | .keepalive => none
  | .disconnect => none
  | .reservedCmd _ => none
  | .dataPkt _ pl => some pl
  | .handshakeInitPkt _ pl => some pl
  | .handshakeResponsePkt _ pl => some pl
  | .keepalivePkt _ pl => some pl
  | .disconnectPkt _ pl => some pl
  | .reservedTypePkt _ _ pl => some pl

/-- A command is one byte at the command port; a frame is 24 bytes and its payload at the receive port
(30_encoding.md R50, R60). -/
def Statement (i : Instr) : Prop :=
  match payloadOf i with
  | none => (encode i).1 = .cmd ∧ (encode i).2.length = 1
  | some pl => (encode i).1 = .rx ∧ (encode i).2.length = pl.length + 24

theorem crc16 : Statement .crc16 := ⟨rfl, rfl⟩
theorem encode : Statement .encode := ⟨rfl, rfl⟩
theorem decode : Statement .decode := ⟨rfl, rfl⟩
theorem connect : Statement .connect := ⟨rfl, rfl⟩
theorem keepalive : Statement .keepalive := ⟨rfl, rfl⟩
theorem disconnect : Statement .disconnect := ⟨rfl, rfl⟩
theorem reservedCmd (code : Byte) : Statement (.reservedCmd code) := ⟨rfl, rfl⟩
theorem dataPkt (h : Header) (pl : Bytes) : Statement (.dataPkt h pl) := ⟨rfl, wire_length _ h pl⟩
theorem handshakeInitPkt (h : Header) (pl : Bytes) : Statement (.handshakeInitPkt h pl) := ⟨rfl, wire_length _ h pl⟩
theorem handshakeResponsePkt (h : Header) (pl : Bytes) : Statement (.handshakeResponsePkt h pl) :=
  ⟨rfl, wire_length _ h pl⟩
theorem keepalivePkt (h : Header) (pl : Bytes) : Statement (.keepalivePkt h pl) := ⟨rfl, wire_length _ h pl⟩
theorem disconnectPkt (h : Header) (pl : Bytes) : Statement (.disconnectPkt h pl) := ⟨rfl, wire_length _ h pl⟩
theorem reservedTypePkt (ty : Byte) (h : Header) (pl : Bytes) : Statement (.reservedTypePkt ty h pl) :=
  ⟨rfl, wire_length ty h pl⟩

end Sys2Proof.Laws.WordLength
end

