-- ==== Sys2Proof/Laws/Run.lean ====
section
/-!
SUPPORT. Runs of several steps, for any machine of the host's interface: what every step keeps, a run keeps.
-/

namespace Sys2Proof.Machine

/-- A property that every step keeps holds after every run of next states. -/
theorem run_keeps (M : Host.Core) {P : M.State → Prop} (hstep : ∀ s t, P s → M.step s = .next t → P t) (k : Nat)
    {s t : M.State} (hs : P s) (h : M.run k s = .next t) : P t := by
  induction k generalizing s with
  | zero => cases h; exact hs
  | succ k ih =>
    rw [Host.Core.run] at h
    cases hu : M.step s with
    | next u => rw [hu] at h; exact ih (hstep s u hs hu) h
    | fault r => rw [hu] at h; cases h
    | refused r => rw [hu] at h; cases h

/-- A state that a step answers again stays for ever. -/
theorem run_fixed (M : Host.Core) {s : M.State} (hs : M.step s = .next s) (k : Nat) : M.run k s = .next s := by
  induction k with
  | zero => rfl
  | succ k ih => rw [Host.Core.run, hs]; exact ih

end Sys2Proof.Machine
end

