-- ==== Sys2Proof/Laws/Step.lean ====
section
/-!
SUPPORT. What one step can do: which event it takes, and that every step is a wait, an instruction, an event from
outside, or a read that is no frame of the table.
-/

namespace Sys2Proof.Machine

/-- The event a step takes, and what is left: `pick` at the head. -/
theorem pick_head {busy held : Bool} {e : Event} {es : List Event} (h : e.enabled busy held = true) :
    pick busy held (e :: es) = some (e, es) := by simp [pick, h]

/-- A picked event may happen (with the hold that stands before it). -/
theorem pick_enabled {busy : Bool} : ∀ {held : Bool} {l : List Event} {e : Event} {r : List Event},
    pick busy held l = some (e, r) → ∃ held', e.enabled busy held' = true
  | held, [], e, r, h => by simp [pick] at h
  | held, x :: xs, e, r, h => by
    unfold pick at h
    split at h
    · rename_i hx
      cases h
      exact ⟨held, hx⟩
    · split at h
      · cases h
      · rename_i hp
        cases h
        exact pick_enabled hp

/-- An event that may happen with a hold may happen without it. -/
theorem enabled_unheld {busy held : Bool} {e : Event} (h : e.enabled busy held = true) :
    e.enabled busy false = true := by
  cases e with
  | host op => cases op <;> simp_all [Event.enabled]
  | _ => exact h

/-- Nothing can happen exactly where the head cannot, nor anything behind it. -/
theorem pick_none_cons {busy held : Bool} {e : Event} {es : List Event} :
    pick busy held (e :: es) = none ↔ e.enabled busy held = false ∧ pick busy (held || e.ofHost) es = none := by
  rw [pick]
  cases he : e.enabled busy held
  · cases pick busy (held || e.ofHost) es <;> simp
  · simp

/-- Behind a held host, nothing can happen exactly where only host operations follow. -/
theorem pick_none_held (es : List Event) : pick true true es = none ↔ ∀ e ∈ es, e.ofHost = true := by
  induction es with
  | nil => simp [pick]
  | cons e es ih =>
    rw [pick_none_cons, Bool.true_or, ih]
    cases e with
    | host op => cases op <;> simp [Event.enabled, Event.ofHost]
    | _ => simp [Event.enabled, Event.ofHost]

/-- What a fetched event is: one that may happen now, and the state is the same but for `pending`. -/
theorem fetch_spec {s s' : State} {e : Event} (h : s.fetch = some (e, s')) :
    ∃ rest held, e.enabled s.busy held = true ∧ s' = setPending rest s := by
  unfold State.fetch at h
  split at h
  · cases h
  · rename_i hp
    cases h
    obtain ⟨held, he⟩ := pick_enabled hp
    exact ⟨_, held, he, rfl⟩

/-- The event at the head of `pending` is the one a step takes, if it may happen. -/
theorem fetch_head {s : State} {e : Event} {rest : List Event} (hp : s.pending = e :: rest)
    (he : e.enabled s.busy false = true) : s.fetch = some (e, setPending rest s) := by
  simp [State.fetch, hp, pick_head he]

@[simp] theorem setPending_busy (es : List Event) (s : State) : (setPending es s).busy = s.busy := rfl

/-- A receive event is taken only while busy (44_interfaces.md R139). -/
theorem fetch_rx_busy {s s' : State} {b : Bytes} (h : s.fetch = some (.rx b, s')) : s.busy = true := by
  obtain ⟨_, _, he, _⟩ := fetch_spec h
  simpa [Event.enabled] using he

/-- A write to CMD is taken only while not busy (44_interfaces.md R132). -/
theorem fetch_cmd_not_busy {s s' : State} {v : BitVec 64} (h : s.fetch = some (.host (.writeReg cmdReg v), s')) :
    s.busy = false := by
  obtain ⟨_, held, he, _⟩ := fetch_spec h
  cases hb : s.busy <;> simp [Event.enabled, hb] at he ⊢

/-- An event from outside that is neither closure nor reset leaves the FSM, the outcome and the histories. -/
theorem outside_frame {e : Event} {s t : State} (h : outside e s = .next t) (hr : e ≠ .rst) (hx : ∀ b, e ≠ .rx b) :
    t.fsm = s.fsm ∧ t.kaPending = s.kaPending ∧ t.ok = s.ok ∧ t.err = s.err ∧ t.txHist = s.txHist
    ∧ t.rxHist = s.rxHist ∧ t.pending = s.pending := by
  cases e with
  | host op =>
    cases op with
    | loadIbuf b =>
      simp only [outside, loadIbuf] at h
      split at h <;> cases h
      simp
    | _ => simp only [outside, Host.Outcome.next.injEq] at h; subst h; simp
  | rx b => exact absurd rfl (hx b)
  | rst => exact absurd rfl hr
  | ports c n => simp only [outside, Host.Outcome.next.injEq] at h; subst h; simp

/-- Every frame row is received: what its meaning is, with the frame's bytes. -/
theorem exec_frameRow (ty : Byte) (h : Header) (pl : Bytes) (s : State) :
    exec (frameRow ty h pl) s = receiveFrame Config.params (wire ty h pl) s := by
  unfold frameRow
  repeat' split
  all_goals simp_all [exec, execDataPkt, execHandshakeInitPkt, execHandshakeResponsePkt, execKeepalivePkt,
    execDisconnectPkt, execReservedTypePkt]

/-- A non-empty read, whatever its length, is given to the core as it is: as a frame row or as bytes that are none. -/
theorem exec_read {b : Bytes} {i : Instr} (h : decode .rx b = .ok i) (s : State) :
    exec i s = receiveFrame Config.params b s := by
  change decodeRead b = .ok i at h
  unfold decodeRead at h
  split at h
  · cases h
  · rename_i hl
    cases h
    rw [exec_frameRow, wire_of_read b (by omega)]

/-- Everything a command can do that is accepted. -/
theorem exec_command_cases {c : Byte} {s t : State} (hb : s.busy = false) (h : exec (decodeCommand c) s = .next t) :
    (c = 0x01#8 ∧ t = crcRule (clearOutcome s))
    ∨ (c = 0x02#8 ∧ t = encodeRule Config.params (clearOutcome s))
    ∨ (c = 0x03#8 ∧ t = decodeRule Config.params (clearOutcome s))
    ∨ (c = 0x10#8 ∧ t = connectRule Config.params (clearOutcome s))
    ∨ (c = 0x11#8 ∧ t = keepaliveRule Config.params (clearOutcome s))
    ∨ (c = 0x12#8 ∧ t = disconnectRule Config.params (clearOutcome s))
    ∨ (c ∉ namedCommands ∧ t = raise .illegalCommand (clearOutcome s)) := by
  unfold decodeCommand at h
  repeat' split at h
  all_goals
    simp only [exec, execCrc16, execEncode, execDecode, execConnect, execKeepalive, execDisconnect, execReservedCmd,
      issue_idle _ _ hb, Host.Outcome.next.injEq] at h
  all_goals simp_all [namedCommands]

/-- Everything one step can do. -/
theorem step_cases {s t : State} (h : step s = .next t) :
    (s.fetch = none ∧ t = s)
    ∨ (∃ v s', s.fetch = some (.host (.writeReg cmdReg v), s') ∧ s.busy = false
        ∧ exec (decodeCommand (v.setWidth 8)) s' = .next t)
    ∨ (∃ b bs s', s.fetch = some (.rx (b :: bs), s') ∧ s.busy = true ∧ (b :: bs).length ≤ Config.params.maxFrame
        ∧ t = acceptFrame Config.params (b :: bs) s')
    ∨ (∃ e s', s.fetch = some (e, s') ∧ e.carried = none ∧ outside e s' = .next t) := by
  unfold step at h
  split at h
  · rename_i hf
    exact .inl ⟨hf, by simpa using h.symm⟩
  rename_i e s' hf
  split at h
  · rename_i hc
    exact .inr (.inr (.inr ⟨e, s', hf, hc, h⟩))
  rename_i port bytes hc
  cases e with
  | host op =>
    cases op with
    | writeReg n v =>
      simp only [Event.carried] at hc
      split at hc
      · rename_i hn
        cases hc
        subst hn
        refine .inr (.inl ⟨v, s', hf, fetch_cmd_not_busy hf, ?_⟩)
        simpa [decode] using h
      · cases hc
    | readReg n => simp [Event.carried] at hc
    | loadIbuf b => simp [Event.carried] at hc
    | readObuf => simp [Event.carried] at hc
    | readSid => simp [Event.carried] at hc
  | rx b =>
    cases b with
    | nil => simp [Event.carried] at hc
    | cons b bs =>
      simp only [Event.carried, Option.some.injEq, Prod.mk.injEq] at hc
      obtain ⟨rfl, rfl⟩ := hc
      have hb := fetch_rx_busy hf
      have key : receiveFrame Config.params (b :: bs) s' = .next t := by
        split at h
        · rename_i hd
          rw [← exec_read hd]; exact h
        · exact h
      obtain ⟨_, _, _, hs'⟩ := fetch_spec hf
      rcases receiveFrame_cases _ _ key with ⟨hnb, _⟩ | ⟨_, hl, ht⟩
      · rw [hs', setPending_busy, hb] at hnb; cases hnb
      · exact .inr (.inr (.inl ⟨b, bs, s', hf, hb, hl, ht⟩))
  | rst => simp [Event.carried] at hc
  | ports c n => simp [Event.carried] at hc

end Sys2Proof.Machine
end

