-- ==== Sys2Proof/Tests/Slice0.lean ====
section
/-!
SUPPORT. Tests. Expected values are those of spec/95_test_vectors.md (V1 to V6, P1 to P5), computed there with the test
instance of the parameters; what needs no parameter is tested on `exec` and `step`. The second half holds, for every
statement with hypotheses, witnesses that meet them.
-/

namespace Sys2Proof.Tests

open Machine

/-! ## WellFormed: an ill-formed term for each check -/

/-- A header with every field zero. -/
def zeroHeader : Header := ⟨0, 0, 0, 0, 0, 0⟩

theorem test_wf_reserved_code : Instr.wf testInstance (.reservedCmd 0x10) = false
    ∧ Instr.wf testInstance (.reservedCmd 0x7F) = true := by decide
theorem test_wf_reserved_type : Instr.wf testInstance (.reservedTypePkt 0x04 zeroHeader []) = false
    ∧ Instr.wf testInstance (.reservedTypePkt 0x02 zeroHeader []) = true := by decide

/-- A payload one byte longer than MAX_PAYLOAD is ill-formed in every frame row. -/
theorem test_wf_long_payload :
    let p : Params := { testInstance with maxPayload := 2 }
    let long : Bytes := [1, 2, 3]
    Instr.wf p (.dataPkt zeroHeader long) = false ∧ Instr.wf p (.handshakeInitPkt zeroHeader long) = false
    ∧ Instr.wf p (.handshakeResponsePkt zeroHeader long) = false ∧ Instr.wf p (.keepalivePkt zeroHeader long) = false
    ∧ Instr.wf p (.disconnectPkt zeroHeader long) = false ∧ Instr.wf p (.reservedTypePkt 0x02 zeroHeader long) = false
    ∧ Instr.wf p (.dataPkt zeroHeader [1, 2]) = true := by decide

/-! ## Decode: words written out from 30_encoding.md R50, R55, R60 -/

theorem test_decode_crc16 : decodeTableWord 8 0x01 = some .crc16 := by decide
theorem test_decode_encode : decodeTableWord 8 0x02 = some .encode := by decide
theorem test_decode_decode : decodeTableWord 8 0x03 = some .decode := by decide
theorem test_decode_connect : decodeTableWord 8 0x10 = some .connect := by decide
theorem test_decode_keepalive : decodeTableWord 8 0x11 = some .keepalive := by decide
theorem test_decode_disconnect : decodeTableWord 8 0x12 = some .disconnect := by decide
theorem test_decode_reserved_cmd : decodeTableWord 8 0x00 = some (.reservedCmd 0x00)
    ∧ decodeTableWord 8 0xFF = some (.reservedCmd 0xFF) := by decide

/-- V2 row 1, the header: every field has a value of its own. -/
theorem test_decode_data :
    decodeTableWord 192 0x4C4C01000701020304050607080000018BCFE56800A571C1
      = some (.dataPkt ⟨0x4C4C, 0x0007, 0x0102030405060708, 0x0000018BCFE56800, 0xA5, 0x71C1⟩ []) := by decide +kernel
/-- P1's Hello, the header. -/
theorem test_decode_handshake_init :
    decodeTableWord 192 0x4C4C03000000000000000000000000018BCFE568000048BF
      = some (.handshakeInitPkt ⟨0x4C4C, 0, 0, 0x0000018BCFE56800, 0, 0x48BF⟩ []) := by decide +kernel
/-- P1's response, the header. -/
theorem test_decode_handshake_response :
    decodeTableWord 192 0x4C4C04000000000000000000000000018BCFE5680700DD2A
      = some (.handshakeResponsePkt ⟨0x4C4C, 0, 0, 0x0000018BCFE56807, 0, 0xDD2A⟩ []) := by decide +kernel
/-- V6's Keepalive on stream 9, the header. -/
theorem test_decode_keepalive_pkt :
    decodeTableWord 192 0x4C4C050009000000000000004D0000000000000005802BCE
      = some (.keepalivePkt ⟨0x4C4C, 9, 77, 5, 0x80, 0x2BCE⟩ []) := by decide +kernel
/-- V2 row 5. -/
theorem test_decode_disconnect_pkt :
    decodeTableWord 192 0x4C4C06000000000000000000020000018BCFE56FD00000E7
      = some (.disconnectPkt ⟨0x4C4C, 0, 2, 0x0000018BCFE56FD0, 0, 0x00E7⟩ []) := by decide +kernel
/-- V2 row 4. -/
theorem test_decode_reserved_type :
    decodeTableWord 192 0x4C4C02000000000000000000000000000000000000006BD1
      = some (.reservedTypePkt 0x02 ⟨0x4C4C, 0, 0, 0, 0, 0x6BD1⟩ []) := by decide +kernel

/-- Refusals of the decoder, each by its name: 23 bytes are no frame row, and a command is one byte. -/
theorem test_decode_rejects :
    decode .rx (List.replicate 23 0x4C) = .error .shortFrame ∧ decode .cmd [] = .error .notOneByte
    ∧ decode .cmd [1, 2] = .error .notOneByte ∧ decodeTableWord 16 1 = none := ⟨rfl, rfl, rfl, rfl⟩

/-- A word of the table runs as the next step, from reset: CRC16 of the empty IBUF (V1 row 1). -/
theorem test_placed_word_runs :
    step (State.reset.withFetchWord 8 0x01) = .next { State.reset with crcResult := 0xFFFF, ok := true } := rfl

/-! ## The checksum: V1 -/

theorem test_crc_bit : crcBit 0x8000 = 0x1021 ∧ crcBit 0xFFFF = 0xEFDF ∧ crcBit 0x7FFF = 0xFFFE := by decide
theorem test_crc_check_value : crc16 [0x31, 0x32, 0x33, 0x34, 0x35, 0x36, 0x37, 0x38, 0x39] = 0x29B1 := by decide +kernel
theorem test_crc_order : crc16 [0x31, 0x32] = 0x3DBA ∧ crc16 [0x32, 0x31] = 0x588A ∧ crc16 [0xFF] = 0xFF00 := by
  decide +kernel
theorem test_crc_zeros : crc16 (List.replicate 22 0) = 0x9FB4 ∧ crc16 (List.replicate 24 0) = 0xEF8A := by
  decide +kernel

/-! ## The instructions, on small states -/

/-- The FSM in a state, waiting for a keepalive response or not, the rest as after reset. -/
def core (fsm : Fsm) (ka : Bool) : State :=
  { State.reset with fsm := fsm, kaPending := ka, sidValid := decide (fsm = .established) }

/-- T = 0x0000018BCFE56800, the clock of the vectors. -/
def clock : BitVec 64 := 0x0000018BCFE56800

/-- IBUF is "123456789". -/
def digits : State := { State.reset with ibuf := [0x31, 0x32, 0x33, 0x34, 0x35, 0x36, 0x37, 0x38, 0x39] }

/-- P4: CRC16 of "123456789". -/
theorem test_crc16 : exec .crc16 digits = .next { digits with crcResult := 0x29B1, ok := true } :=
  congrArg Host.Outcome.next
    (by decide +kernel : crcRule (clearOutcome digits) = { digits with crcResult := 0x29B1, ok := true })

/-- The operand registers, IBUF and clock of V2 row 1. -/
def helloOperands : State :=
  { State.reset with
    opType := 0x01, opStream := 0x0007, opSeq := 0x0102030405060708, opFlags := 0xA5
    ibuf := [0x68, 0x65, 0x6C, 0x6C, 0x6F], clkNow := clock }

/-- V2 row 1. -/
def helloFrameBytes : Bytes :=
  [0x4C, 0x4C, 0x01, 0x00, 0x07, 0x01, 0x02, 0x03, 0x04, 0x05, 0x06, 0x07, 0x08, 0x00, 0x00,
    0x01, 0x8B, 0xCF, 0xE5, 0x68, 0x00, 0xA5, 0x71, 0xC1, 0x68, 0x65, 0x6C, 0x6C, 0x6F]

/-- P4: ENCODE gives V2 row 1. -/
theorem test_encode :
    (encodeRule testInstance helloOperands).obuf = helloFrameBytes
    ∧ (encodeRule testInstance helloOperands).ok = true := by decide +kernel

/-- V2's last lines, with a small MAX_PAYLOAD: a payload one byte too long is ERR 7 and leaves OBUF; one that just fits
is encoded. -/
theorem test_encode_too_long :
    let long := encodeRule { testInstance with maxPayload := 4 } { helloOperands with obuf := [0xEE] }
    long.ok = false ∧ long.err = 7 ∧ long.obuf = [0xEE]
    ∧ (encodeRule { testInstance with maxPayload := 5 } helloOperands).obuf.length = 29 := by decide +kernel

/-- V3 row 1: DECODE of V2 row 1. -/
theorem test_decode :
    decodeRule testInstance { State.reset with ibuf := helloFrameBytes }
    = { State.reset with
        ibuf := helloFrameBytes, ok := true, rType := 0x01, rStream := 0x0007, rSeq := 0x0102030405060708
        rTs := 0x0000018BCFE56800, rFlags := 0xA5, rCsum := 0x71C1, obuf := [0x68, 0x65, 0x6C, 0x6C, 0x6F] } := by
  decide +kernel

/-- V3 rows 2 to 6 and 9 to 11: the first error decides. -/
theorem test_decode_errors :
    decodeFrame testInstance [] = .err .tooShort
    ∧ decodeFrame testInstance (helloFrameBytes.take 23) = .err .tooShort
    ∧ decodeFrame testInstance (List.replicate 23 0) = .err .tooShort
    ∧ decodeFrame testInstance
        [0x4C, 0x4D, 0x01, 0x00, 0x07, 0x01, 0x02, 0x03, 0x04, 0x05, 0x06, 0x07, 0x08, 0x00,
        0x00, 0x01, 0x8B, 0xCF, 0xE5, 0x68, 0x00, 0xA5, 0xDD, 0xA0, 0x68, 0x65, 0x6C, 0x6C,
        0x6F] = .err .badMagic
    ∧ decodeFrame testInstance (helloFrameBytes.take 24) = .err .checksumMismatch
    ∧ decodeFrame testInstance (List.replicate 24 0) = .err .badMagic
    ∧ decodeFrame testInstance ([0x4C, 0x4C] ++ List.replicate 22 0) = .err .checksumMismatch := by decide +kernel

/-- The clock and the nonce of P1. -/
def helloState : State :=
  { State.reset with
    clkNow := clock, nonceIn := 0x000102030405060708090A0B0C0D0E0F101112131415161718191A1B1C1D1E1F }

/-- P1: the Hello, its 22 checked header bytes and its 91 payload bytes, with the checksum of both between them. -/
theorem test_connect :
    let head : Bytes := [0x4C, 0x4C, 0x03, 0x00, 0x00, 0x00, 0x00, 0x00, 0x00, 0x00, 0x00, 0x00, 0x00, 0x00, 0x00,
      0x01, 0x8B, 0xCF, 0xE5, 0x68, 0x00, 0x00]
    let payload : Bytes :=
      [0x7B, 0x22, 0x6E, 0x6F, 0x6E, 0x63, 0x65, 0x22, 0x3A, 0x20, 0x22, 0x30, 0x30, 0x30, 0x31,
      0x30, 0x32, 0x30, 0x33, 0x30, 0x34, 0x30, 0x35, 0x30, 0x36, 0x30, 0x37, 0x30, 0x38, 0x30,
      0x39, 0x30, 0x61, 0x30, 0x62, 0x30, 0x63, 0x30, 0x64, 0x30, 0x65, 0x30, 0x66, 0x31, 0x30,
      0x31, 0x31, 0x31, 0x32, 0x31, 0x33, 0x31, 0x34, 0x31, 0x35, 0x31, 0x36, 0x31, 0x37, 0x31,
      0x38, 0x31, 0x39, 0x31, 0x61, 0x31, 0x62, 0x31, 0x63, 0x31, 0x64, 0x31, 0x65, 0x31, 0x66,
      0x22, 0x2C, 0x20, 0x22, 0x76, 0x65, 0x72, 0x73, 0x69, 0x6F, 0x6E, 0x22, 0x3A, 0x20, 0x31,
      0x7D]
    (connectRule testInstance helloState).txHist = [head ++ be16 (crc16 (head ++ payload)) ++ payload] := by
  have h : testInstance.hello helloState.nonceIn =
      [0x7B, 0x22, 0x6E, 0x6F, 0x6E, 0x63, 0x65, 0x22, 0x3A, 0x20, 0x22, 0x30, 0x30, 0x30, 0x31,
      0x30, 0x32, 0x30, 0x33, 0x30, 0x34, 0x30, 0x35, 0x30, 0x36, 0x30, 0x37, 0x30, 0x38, 0x30,
      0x39, 0x30, 0x61, 0x30, 0x62, 0x30, 0x63, 0x30, 0x64, 0x30, 0x65, 0x30, 0x66, 0x31, 0x30,
      0x31, 0x31, 0x31, 0x32, 0x31, 0x33, 0x31, 0x34, 0x31, 0x35, 0x31, 0x36, 0x31, 0x37, 0x31,
      0x38, 0x31, 0x39, 0x31, 0x61, 0x31, 0x62, 0x31, 0x63, 0x31, 0x64, 0x31, 0x65, 0x31, 0x66,
      0x22, 0x2C, 0x20, 0x22, 0x76, 0x65, 0x72, 0x73, 0x69, 0x6F, 0x6E, 0x22, 0x3A, 0x20, 0x31,
      0x7D] := by
    decide +kernel
  simp only [connectRule, helloFrame, sampleNonce, h]
  rfl

/-- 44_interfaces.md R136, 10_state.md R24: byte 0 of the nonce is bits 255:248, byte 31 is bits 7:0. -/
theorem test_nonce_bytes :
    (nonceBytes helloState.nonceIn).getD 0 0xFF = 0x00 ∧ (nonceBytes helloState.nonceIn).getD 1 0xFF = 0x01
    ∧ (nonceBytes helloState.nonceIn).getD 31 0xFF = 0x1F := by decide +kernel

/-- P1: the checksum of the Hello is 0x48BF, in three parts of its 113 bytes (the register between them was computed
beside 40_crc.md R70, outside this model). -/
theorem test_connect_checksum :
    crcFrom 0xFFFF [0x4C, 0x4C, 0x03, 0x00, 0x00, 0x00, 0x00, 0x00, 0x00, 0x00, 0x00, 0x00, 0x00, 0x00, 0x00,
      0x01, 0x8B, 0xCF, 0xE5, 0x68, 0x00, 0x00] = 0xADA5
    ∧ crcFrom 0xADA5 [0x7B, 0x22, 0x6E, 0x6F, 0x6E, 0x63, 0x65, 0x22, 0x3A, 0x20, 0x22, 0x30, 0x30, 0x30, 0x31,
      0x30, 0x32, 0x30, 0x33, 0x30, 0x34, 0x30, 0x35, 0x30, 0x36, 0x30, 0x37, 0x30, 0x38, 0x30,
      0x39, 0x30, 0x61, 0x30, 0x62, 0x30, 0x63, 0x30, 0x64, 0x30, 0x65, 0x30, 0x66, 0x31, 0x30] = 0x9068
    ∧ crcFrom 0x9068 [0x31, 0x31, 0x31, 0x32, 0x31, 0x33, 0x31, 0x34, 0x31, 0x35, 0x31, 0x36, 0x31, 0x37, 0x31,
      0x38, 0x31, 0x39, 0x31, 0x61, 0x31, 0x62, 0x31, 0x63, 0x31, 0x64, 0x31, 0x65, 0x31, 0x66,
      0x22, 0x2C, 0x20, 0x22, 0x76, 0x65, 0x72, 0x73, 0x69, 0x6F, 0x6E, 0x22, 0x3A, 0x20, 0x31,
      0x7D] = 0x48BF := by
  decide +kernel

/-- P1, V6: after CONNECT the STATUS is 0x09; in Established and Failed it is illegal and moves nothing. -/
theorem test_connect_legality :
    statusWord (connectRule testInstance State.reset) = 0x09
    ∧ connectRule testInstance (core .established false) = { core .established false with err := 8 }
    ∧ connectRule testInstance (core .failed false) = { core .failed false with err := 8 } := by decide +kernel

/-- P2: KEEPALIVE with sequence 1 at T+1000; STATUS is 0x2E. -/
theorem test_keepalive :
    let t := keepaliveRule testInstance { core .established false with opSeq := 1, clkNow := clock + 1000 }
    t.txHist = [[0x4C, 0x4C, 0x05, 0x00, 0x00, 0x00, 0x00, 0x00, 0x00, 0x00, 0x00, 0x00, 0x01, 0x00, 0x00,
    0x01, 0x8B, 0xCF, 0xE5, 0x6B, 0xE8, 0x00, 0xBF, 0x01]]
    ∧ statusWord t = 0x2E := by decide +kernel

/-- V6: KEEPALIVE in Idle and Failed. -/
theorem test_keepalive_legality :
    keepaliveRule testInstance State.reset = { State.reset with err := 8 }
    ∧ keepaliveRule testInstance (core .failed false) = { core .failed false with err := 8 } := by decide +kernel

/-- P3: DISCONNECT with sequence 2 at T+2000; STATUS is 0x32. -/
theorem test_disconnect :
    let t := disconnectRule testInstance { core .established false with opSeq := 2, clkNow := clock + 2000 }
    t.txHist = [[0x4C, 0x4C, 0x06, 0x00, 0x00, 0x00, 0x00, 0x00, 0x00, 0x00, 0x00, 0x00, 0x02, 0x00, 0x00,
    0x01, 0x8B, 0xCF, 0xE5, 0x6F, 0xD0, 0x00, 0x00, 0xE7]]
    ∧ statusWord t = 0x32 := by decide +kernel

/-- V6: DISCONNECT in Idle. -/
theorem test_disconnect_legality :
    disconnectRule testInstance State.reset = { State.reset with err := 8 } := by decide +kernel

/-- V6: 0x00 and 0x7F written to CMD in Idle. -/
theorem test_reserved_cmd :
    exec (decodeCommand 0x00) State.reset = .next { State.reset with err := 8 }
    ∧ exec (decodeCommand 0x7F) State.reset = .next { State.reset with err := 8 } := ⟨rfl, rfl⟩

/-- P1's HandshakeResponse. -/
def responseFrame : Bytes :=
  [0x4C, 0x4C, 0x04, 0x00, 0x00, 0x00, 0x00, 0x00, 0x00, 0x00, 0x00, 0x00, 0x00, 0x00, 0x00,
    0x01, 0x8B, 0xCF, 0xE5, 0x68, 0x07, 0x00, 0xDD, 0x2A, 0x7B, 0x22, 0x73, 0x65, 0x73, 0x73,
    0x69, 0x6F, 0x6E, 0x5F, 0x69, 0x64, 0x22, 0x3A, 0x20, 0x22, 0x61, 0x62, 0x63, 0x31, 0x32,
    0x33, 0x22, 0x7D]

/-- P1: the response establishes the session; STATUS is 0x32, SID is "abc123". -/
theorem test_handshake_response :
    let t := acceptFrame testInstance responseFrame (core .helloSent false)
    statusWord t = 0x32 ∧ t.err = 0 ∧ t.sid = [0x61, 0x62, 0x63, 0x31, 0x32, 0x33] ∧ t.rTs = clock + 7
    ∧ t.rCsum = 0xDD2A ∧ t.obuf = responseFrame.drop 24 := by decide +kernel

/-- V6: a HandshakeResponse without an identifier is AckMalformed; in a keepalive wait any is an unexpected type. -/
theorem test_handshake_response_malformed :
    let f : Bytes := [0x4C, 0x4C, 0x04, 0x00, 0x00, 0x00, 0x00, 0x00, 0x00, 0x00, 0x00, 0x00, 0x00, 0x00, 0x00,
      0x01, 0x8B, 0xCF, 0xE5, 0x68, 0x07, 0x00, 0xB5, 0xF0, 0x7B, 0x7D]
    let t := acceptFrame testInstance f (core .helloSent false)
    statusWord t = 0x03 ∧ t.err = 6 ∧ t.rType = 0x04 ∧ t.obuf = [0x7B, 0x7D]
    ∧ (acceptFrame testInstance f (core .established true)).err = 4 := by decide +kernel

/-- V6: a Keepalive with any stream, sequence, flags and payload answers a keepalive. -/
theorem test_keepalive_pkt :
    let t := acceptFrame testInstance
      [0x4C, 0x4C, 0x05, 0x00, 0x09, 0x00, 0x00, 0x00, 0x00, 0x00, 0x00, 0x00, 0x4D, 0x00, 0x00,
      0x00, 0x00, 0x00, 0x00, 0x00, 0x05, 0x80, 0x2B, 0xCE, 0x78] (core .established true)
    statusWord t = 0x32 ∧ t.err = 0 ∧ t.rSeq = 77 ∧ t.obuf = [0x78] := by decide +kernel

/-- P5: a Keepalive fails the handshake and is latched. -/
theorem test_keepalive_pkt_unexpected :
    let t := acceptFrame testInstance
      [0x4C, 0x4C, 0x05, 0x00, 0x00, 0x00, 0x00, 0x00, 0x00, 0x00, 0x00, 0x00, 0x01, 0x00, 0x00,
      0x01, 0x8B, 0xCF, 0xE5, 0x6B, 0xE8, 0x00, 0xBF, 0x01] (core .helloSent false)
    statusWord t = 0x03 ∧ t.err = 4 ∧ t.rType = 0x05 ∧ t.rSeq = 1 ∧ t.rCsum = 0xBF01 ∧ t.obuf = [] := by
  decide +kernel

/-- P2: a Disconnect is a liveness failure, STATUS 0x22. -/
theorem test_disconnect_pkt :
    let t := acceptFrame testInstance
      [0x4C, 0x4C, 0x06, 0x00, 0x00, 0x00, 0x00, 0x00, 0x00, 0x00, 0x00, 0x00, 0x04, 0x00, 0x00,
      0x01, 0x8B, 0xCF, 0xE5, 0x77, 0xA5, 0x00, 0x6E, 0x36] (core .established true)
    statusWord t = 0x22 ∧ t.err = 4 ∧ t.rType = 0x06 ∧ t.rSeq = 4 ∧ t.rCsum = 0x6E36 := by decide +kernel

/-- V6: a Data frame in a keepalive wait. -/
theorem test_data_pkt :
    let t := acceptFrame testInstance
      [0x4C, 0x4C, 0x01, 0x00, 0x00, 0x00, 0x00, 0x00, 0x00, 0x00, 0x00, 0x00, 0x00, 0x00, 0x00,
      0x01, 0x8B, 0xCF, 0xE5, 0x68, 0x07, 0x00, 0x7B, 0xFC, 0x68, 0x69] (core .established true)
    statusWord t = 0x22 ∧ t.err = 4 ∧ t.rType = 0x01 ∧ t.obuf = [0x68, 0x69] := by decide +kernel

/-- 42_handshake.md R110: an incoming HandshakeInit is an unexpected type. -/
theorem test_handshake_init_pkt :
    let t := acceptFrame testInstance (encodeFrame testInstance 0x03 0 0 0 [] clock) (core .helloSent false)
    statusWord t = 0x03 ∧ t.err = 4 ∧ t.rType = 0x03 := by decide +kernel

/-- V6: a reserved type in HelloSent. -/
theorem test_reserved_type_pkt :
    let t := acceptFrame testInstance
      [0x4C, 0x4C, 0x02, 0x00, 0x00, 0x00, 0x00, 0x00, 0x00, 0x00, 0x00, 0x00, 0x00, 0x00, 0x00,
      0x00, 0x00, 0x00, 0x00, 0x00, 0x00, 0x00, 0x6B, 0xD1] (core .helloSent false)
    statusWord t = 0x03 ∧ t.err = 4 ∧ t.rType = 0x02 := by decide +kernel

/-- V6: ten bytes, V3 row 5 and V3 row 6 in HelloSent; ten bytes in a keepalive wait. -/
theorem test_damaged_frames :
    acceptFrame testInstance (List.replicate 10 0) (core .helloSent false)
      = { core .failed false with err := 1, rxHist := [.frame (List.replicate 10 0)] }
    ∧ (acceptFrame testInstance
        [0x4C, 0x4D, 0x01, 0x00, 0x07, 0x01, 0x02, 0x03, 0x04, 0x05, 0x06, 0x07, 0x08, 0x00,
        0x00, 0x01, 0x8B, 0xCF, 0xE5, 0x68, 0x00, 0xA5, 0xDD, 0xA0, 0x68, 0x65, 0x6C, 0x6C,
        0x6F] (core .helloSent false)).err = 2
    ∧ (acceptFrame testInstance (helloFrameBytes.take 24) (core .helloSent false)).err = 3
    ∧ acceptFrame testInstance (List.replicate 10 0) (core .established true)
      = { core .established false with err := 1, rxHist := [.frame (List.replicate 10 0)] } := by decide +kernel

/-- V6: closure in HelloSent and in a keepalive wait. -/
theorem test_closure :
    step { core .helloSent false with pending := [.rx []] } = .next { core .failed false with err := 5, rxHist := [.closed] }
    ∧ step { core .established true with pending := [.rx []] }
      = .next { core .established false with err := 5, rxHist := [.closed] } := ⟨rfl, rfl⟩

/-- P4: each operand register is written with its own width. -/
theorem test_operand_writes :
    writeOperand 0x01 0x12345 State.reset = { State.reset with opStream := 0x2345 }
    ∧ writeOperand 0x02 0x0102030405060708 State.reset = { State.reset with opSeq := 0x0102030405060708 }
    ∧ writeOperand 0x09 0xFF State.reset = State.reset := by decide

/-! ## The default payload functions: V5 -/

theorem test_hello_ser :
    helloSerDefault [0x00, 0xAF] 10
    = [0x7B, 0x22, 0x6E, 0x6F, 0x6E, 0x63, 0x65, 0x22, 0x3A, 0x20, 0x22, 0x30, 0x30, 0x61, 0x66,
    0x22, 0x2C, 0x20, 0x22, 0x76, 0x65, 0x72, 0x73, 0x69, 0x6F, 0x6E, 0x22, 0x3A, 0x20, 0x31,
    0x30, 0x7D] := by
  decide +kernel

theorem test_ack_parse_found :
    ackParseDefault [0x7B, 0x22, 0x73, 0x65, 0x73, 0x73, 0x69, 0x6F, 0x6E, 0x5F, 0x69, 0x64, 0x22, 0x3A, 0x22,
    0x61, 0x62, 0x63, 0x31, 0x32, 0x33, 0x22, 0x7D]
      = some [0x61, 0x62, 0x63, 0x31, 0x32, 0x33]
    ∧ ackParseDefault [0x7B, 0x22, 0x76, 0x65, 0x72, 0x73, 0x69, 0x6F, 0x6E, 0x22, 0x3A, 0x20, 0x31, 0x2C, 0x20,
    0x22, 0x73, 0x65, 0x73, 0x73, 0x69, 0x6F, 0x6E, 0x5F, 0x69, 0x64, 0x22, 0x20, 0x3A, 0x20,
    0x22, 0x73, 0x2D, 0x31, 0x22, 0x7D]
      = some [0x73, 0x2D, 0x31]
    ∧ ackParseDefault [0x7B, 0x22, 0x73, 0x65, 0x73, 0x73, 0x69, 0x6F, 0x6E, 0x5F, 0x69, 0x64, 0x22, 0x3A, 0x20,
    0x22, 0x22, 0x7D] = some [] := by
  decide +kernel

theorem test_ack_parse_none :
    ackParseDefault [0x7B, 0x7D] = none ∧ ackParseDefault [] = none
    ∧ ackParseDefault [0x7B, 0x22, 0x73, 0x65, 0x73, 0x73, 0x69, 0x6F, 0x6E, 0x5F, 0x69, 0x64, 0x22, 0x3A, 0x20,
    0x37, 0x7D] = none
    ∧ ackParseDefault [0x7B, 0x22, 0x73, 0x65, 0x73, 0x73, 0x69, 0x6F, 0x6E, 0x5F, 0x69, 0x64, 0x22, 0x3A, 0x20,
    0x22, 0x61, 0x62, 0x63] = none
    ∧ ackParseDefault [0x7B, 0x22, 0x73, 0x65, 0x73, 0x73, 0x69, 0x6F, 0x6E, 0x5F, 0x69, 0x64, 0x22] = none := by
  decide +kernel

/-! ## Witnesses: for every statement with hypotheses, a state and operands that meet them -/

/-- A header whose magic and checksum are right for the machine's own parameters. -/
def goodHeader (ty : Byte) (pl : Bytes) : Header :=
  { protocolId := Config.params.protocolId, streamId := 1, sequenceNumber := 2, timestamp := 3, flags := 4
    checksum := csum Config.params.protocolId ty 1 2 3 4 pl }

theorem goodHeader_intact (ty : Byte) (pl : Bytes) : intact Config.params ty (goodHeader ty pl) pl = true := by
  simp [intact, goodHeader]

/-- A header whose magic is not the machine's. -/
def badMagic : Header := { goodHeader 0x01 [] with protocolId := Config.params.protocolId + 1 }

/-- A header whose magic is the machine's and whose checksum is wrong. -/
def badChecksum : Header := { goodHeader 0x01 [] with checksum := (goodHeader 0x01 []).checksum + 1 }

theorem empty_fits : ([] : Bytes).length ≤ Config.params.maxPayload := Nat.zero_le _

theorem one_byte_fits : ([0x4C] : Bytes).length ≤ Config.params.maxFrame := by simp [Params.maxFrame, headerLen]

/-- A command is at the head of `pending`. -/
def commanded (v : BitVec 64) (s : State) : State := { s with pending := [.host (.writeReg 0x08 v)] }

/-- A sequence of bytes one longer than MAX_FRAME. -/
def tooLong : Bytes := List.replicate (Config.params.maxFrame + 1) 0

theorem tooLong_length : Config.params.maxFrame < tooLong.length := by simp [tooLong]

/-- DecodeOfEncodeIsTheInstruction, PlacedInstructionRunsNext: a well-formed instruction of each port. -/
theorem witness_well_formed :
    Instr.WellFormed .crc16 ∧ Instr.WellFormed (.reservedCmd 0x7F) ∧ Instr.WellFormed (.dataPkt zeroHeader [])
    ∧ Instr.WellFormed (.reservedTypePkt 0x02 zeroHeader []) ∧ (encode .crc16).1 = .cmd
    ∧ (encode (.dataPkt zeroHeader [])).1 = .rx := by
  refine ⟨rfl, by decide, ?_, ?_, rfl, rfl⟩ <;> simp [Instr.WellFormed, Instr.wf, payloadFits, namedTypes]

/-- EncodeOfDecodeIsTheBytes: 24 zero bytes decode, and fit. -/
theorem witness_decode_of_bytes :
    decode .rx (List.replicate 24 0) = .ok (.reservedTypePkt 0 zeroHeader [])
    ∧ (List.replicate 24 (0 : Byte)).length ≤ Config.params.maxFrame := by
  exact ⟨rfl, by simp [Params.maxFrame, headerLen]⟩

/-- ResetInputFromAnyState. -/
theorem witness_reset : { core .failed false with pending := [.rst, .rx []] }.pending = .rst :: [.rx []] := rfl

/-- EveryStepKeepsTheInvariant: a session that waits for its keepalive's response meets the invariant, and closes. -/
theorem witness_invariant :
    let s : State := { core .established true with pending := [.rx []] }
    s.Inv Config.params
    ∧ step s = .next { core .established false with err := 5, rxHist := [.closed] } := by
  refine ⟨⟨fun _ => rfl, by decide, fun _ => rfl, ?_, by decide, fun _ => ⟨rfl, rfl⟩, by decide⟩, rfl⟩
  simp [State.buffersWf, Memory.wf, core, State.reset]

/-- StepRunsTheDecodedInstruction: each of its three clauses. -/
theorem witness_step_runs :
    let c := commanded 0x01 State.reset
    let f := List.replicate 24 (0 : Byte)
    let r : State := { core .helloSent false with pending := [.rx f] }
    (c.busy = false ∧ c.pending = .host (.writeReg 0x08 0x01) :: [])
    ∧ (r.busy = true ∧ r.pending = .rx f :: [] ∧ decode .rx f = .ok (.reservedTypePkt 0 zeroHeader []))
    ∧ (r.fetch = some (.rx f, core .helloSent false) ∧ (Event.rx f).carried = some (.rx, f)) :=
  ⟨⟨rfl, rfl⟩, ⟨rfl, rfl, rfl⟩, rfl, rfl⟩

/-- StepTakesTheFirstEnabledEvent: not busy, an unread frame is passed over; busy, a held host is. -/
theorem witness_fetch :
    ({ State.reset with pending := [.rx [1], .host .readSid] }).fetch
      = some (.host .readSid, { State.reset with pending := [.rx [1]] })
    ∧ ({ core .helloSent false with pending := [.host (.writeReg 0x08 1), .host .readSid, .rx [1]] }).fetch
      = some (.rx [1], { core .helloSent false with pending := [.host (.writeReg 0x08 1), .host .readSid] }) :=
  ⟨rfl, rfl⟩

/-- StepTakesTheFirstEnabledEvent, its other half: nothing can happen, not busy and busy; and a reset and a change of the
ports behind an event that cannot happen are taken. -/
theorem witness_fetch_none :
    ({ State.reset with pending := [.rx [1], .rx []] }).fetch = none
    ∧ (core .helloSent false).fetch = none
    ∧ ({ core .helloSent false with pending := [.host (.writeReg 0x08 1), .host .readSid] }).fetch = none
    ∧ ({ State.reset with pending := [.rx [1], .rst] }).fetch = some (.rst, { State.reset with pending := [.rx [1]] })
    ∧ ({ core .helloSent false with pending := [.host (.writeReg 0x08 1), .ports 5 6] }).fetch
      = some (.ports 5 6, { core .helloSent false with pending := [.host (.writeReg 0x08 1)] }) :=
  ⟨rfl, rfl, rfl, rfl, rfl⟩

/-- The commands' statements: a state that is not busy in each place of the FSM, IBUF empty, short, and too long. -/
theorem witness_not_busy :
    State.reset.busy = false ∧ State.reset.ibuf = [] ∧ (core .established false).busy = false
    ∧ (core .failed false).busy = false ∧ (core .failed false).fsm ≠ .idle ∧ (core .failed false).fsm ≠ .established
    ∧ ({ State.reset with ibuf := tooLong }).busy = false
    ∧ ({ State.reset with ibuf := tooLong }).ibuf.length > Config.params.maxPayload := by
  refine ⟨rfl, rfl, rfl, rfl, by decide, by decide, rfl, ?_⟩
  simp only [tooLong, List.length_replicate, Params.maxFrame, headerLen]; omega

/-- ENCODE at the boundary of its two clauses: a payload of exactly MAX_PAYLOAD bytes, and one more. -/
theorem witness_encode_boundary :
    ¬ (List.replicate Config.params.maxPayload (0 : Byte)).length > Config.params.maxPayload
    ∧ (List.replicate (Config.params.maxPayload + 1) (0 : Byte)).length > Config.params.maxPayload := by simp

/-- DecodeLatchesThePacketOfIbuf: each of the three errors of `decode`. -/
theorem witness_decode_errors :
    decodeFrame Config.params [] = .err .tooShort
    ∧ decodeFrame Config.params (wire 0x01 badMagic []) = .err .badMagic
    ∧ decodeFrame Config.params (wire 0x01 badChecksum []) = .err .checksumMismatch := by
  refine ⟨rfl, ?_, ?_⟩
  · simp [decodeFrame_wire, badMagic]
  · simp [decodeFrame_wire, badChecksum, goodHeader]

/-- IllegalCommandSetsOnlyTheOutcome, CommandCodesDecode: the reserved codes at the edges of the named ones. -/
theorem witness_reserved_codes :
    ∀ c ∈ [0x00#8, 0x04#8, 0x0F#8, 0x13#8, 0xFF#8], c ∉ [0x01#8, 0x02#8, 0x03#8, 0x10#8, 0x11#8, 0x12#8] := by decide

/-- CommandIsNotAcceptedWhileBusy: both busy states, with the write to CMD before other host operations. -/
theorem witness_busy :
    (core .helloSent false).busy = true ∧ (core .established true).busy = true
    ∧ ({ core .helloSent false with pending := [.host (.writeReg 0x08 1), .host .readSid] }).busy = true
    ∧ ∀ e ∈ [Event.host .readSid], e.ofHost = true := by decide

/-- HelloSentTakesOneFrame, KeepaliveWaitTakesOneFrame: a read that is no frame, and one that decodes. -/
theorem witness_reads :
    let b : Bytes := [0x4C]
    let s : State := { core .helloSent false with pending := [.rx b] }
    let k : State := { core .established true with pending := [.rx b] }
    s.fsm = .helloSent ∧ s.pending = .rx b :: [] ∧ k.fsm = .established ∧ k.kaPending = true ∧ k.pending = .rx b :: []
    ∧ b ≠ [] ∧ b.length ≤ Config.params.maxFrame := ⟨rfl, rfl, rfl, rfl, rfl, by decide, one_byte_fits⟩

/-- The same: a Keepalive that decodes, 24 bytes long. -/
theorem witness_good_read :
    let b := wire 0x05 (goodHeader 0x05 []) []
    b ≠ [] ∧ b.length ≤ Config.params.maxFrame
    ∧ decodeFrame Config.params b = .ok
      { protocolId := Config.params.protocolId, packetType := 0x05, streamId := 1, sequenceNumber := 2, timestamp := 3
        flags := 4, checksum := csum Config.params.protocolId 0x05 1 2 3 4 [], payload := [] } := by
  refine ⟨List.cons_ne_nil _ _, by simp [wire_length, Params.maxFrame, headerLen], ?_⟩
  simp [decodeFrame_wire, goodHeader, csum]

/-- ClosureWhileWaiting: both clauses. -/
theorem witness_closure :
    let s : State := { core .helloSent false with pending := [.rx []] }
    let k : State := { core .established true with pending := [.rx []] }
    s.pending = .rx [] :: [] ∧ s.fsm = .helloSent ∧ k.pending = .rx [] :: [] ∧ k.fsm = .established
    ∧ k.kaPending = true := ⟨rfl, rfl, rfl, rfl, rfl⟩

/-- The statements about an intact packet: every named type and a reserved one, in HelloSent and in a keepalive wait. -/
theorem witness_intact :
    (∀ ty ∈ [0x01#8, 0x02#8, 0x03#8, 0x04#8, 0x05#8, 0x06#8], intact Config.params ty (goodHeader ty []) [] = true)
    ∧ (0x02#8 ∉ [0x01#8, 0x03#8, 0x04#8, 0x05#8, 0x06#8]) ∧ ([] : Bytes).length ≤ Config.params.maxPayload
    ∧ (core .helloSent false).fsm = .helloSent
    ∧ (core .established true).fsm ≠ .helloSent ∧ (core .established true).kaPending = true :=
  ⟨fun ty _ => goodHeader_intact ty [], by decide, empty_fits, rfl, by decide, rfl⟩

/-- DamagedPacketLatchesNothing: a wrong magic, and a right magic with a wrong checksum. -/
theorem witness_damaged :
    intact Config.params 0x01 badMagic [] = false ∧ badMagic.protocolId ≠ Config.params.protocolId
    ∧ intact Config.params 0x01 badChecksum [] = false ∧ badChecksum.protocolId = Config.params.protocolId
    ∧ (core .helloSent false).busy = true ∧ (core .established true).busy = true := by
  refine ⟨?_, ?_, ?_, rfl, rfl, rfl⟩
  · simp [intact, badMagic]
  · simp [badMagic]
  · simp [intact, badChecksum, goodHeader]

/-- FrameIsNotReadWhileNotBusy: only frames are pending, and the core is not busy. -/
theorem witness_unread :
    (core .established false).busy = false
    ∧ ∀ e ∈ ({ core .established false with pending := [.rx [1]] }).pending, ∃ b, e = .rx b :=
  ⟨rfl, fun _ h => ⟨[1], List.mem_singleton.mp h⟩⟩

/-- OperandWriteTruncates: each operand register and a number past them, busy. -/
theorem witness_operand_write :
    ∀ n ∈ [0x00#8, 0x01#8, 0x02#8, 0x03#8, 0x04#8, 0x07#8, 0x09#8, 0xFF#8], n ≠ 0x08#8
      ∧ ({ core .helloSent false with pending := [.host (.writeReg n 5)] }).pending = .host (.writeReg n 5) :: [] := by
  decide

/-- LoadIbufReplacesTheWhole: both clauses at their boundary. -/
theorem witness_load :
    (List.replicate Config.params.maxFrame (0 : Byte)).length ≤ Config.params.maxFrame
    ∧ Config.params.maxFrame < tooLong.length
    ∧ ({ State.reset with pending := [.host (.loadIbuf tooLong)] }).pending = .host (.loadIbuf tooLong) :: [] := by
  simp [tooLong]

/-- ReadsHaveNoSideEffect, InputPortsTakeAnyValue. -/
theorem witness_host_reads :
    (∀ op ∈ [HostOp.readReg 0x09, .readObuf, .readSid],
      ({ State.reset with pending := [.host op] }).pending = .host op :: [])
    ∧ ({ State.reset with pending := [.ports 1 2] }).pending = .ports 1 2 :: [] := by decide

/-- RegisterMapReads: the numbers at the edges of the table that are not in it. -/
theorem witness_unknown_registers :
    ∀ n ∈ [0x04#8, 0x08#8, 0x0E#8, 0x16#8, 0x17#8, 0x19#8, 0xFF#8], n ∉ [0x00#8, 0x01#8, 0x02#8, 0x03#8, 0x09#8, 0x0A#8,
      0x0B#8, 0x0C#8, 0x0D#8, 0x10#8, 0x11#8, 0x12#8, 0x13#8, 0x14#8, 0x15#8, 0x18#8] := by decide

/-- ChecksumDetectsBursts: a burst of exactly 16 positions, from position 3 to 18. -/
theorem witness_burst :
    let a : Bytes := [0x00, 0x00, 0x00]
    let b : Bytes := [0x10, 0x00, 0x20]
    a.length = b.length ∧ a ≠ b
    ∧ ∀ k, k < 8 * a.length →
      (a.getD (k / 8) 0#8).getLsbD (7 - k % 8) ≠ (b.getD (k / 8) 0#8).getLsbD (7 - k % 8) → 3 ≤ k ∧ k < 3 + 16 := by
  decide

/-- DecodedFrameIsTheFrameOfItsFields, SingleByteMutationIsDetected: a frame that decodes, changed at an offset of each
clause: 1 (the magic), 2 and 23. -/
theorem witness_mutation :
    let f := wire 0x05 (goodHeader 0x05 []) []
    (∃ pk, decodeFrame Config.params f = .ok pk) ∧ 1 < f.length ∧ 2 < f.length ∧ 23 < f.length
    ∧ ∀ i, ∃ v : Byte, f.getD i 0#8 ≠ v := by
  refine ⟨⟨_, witness_good_read.2.2⟩, by simp [wire_length], by simp [wire_length], by simp [wire_length], ?_⟩
  intro i
  exact ⟨(wire 0x05 (goodHeader 0x05 []) []).getD i 0#8 + 1, by simp⟩

/-- The statements about every step: each kind of event with its next state. CONNECT from Idle. -/
theorem witness_step_connect : ∃ t, step (commanded 0x10 State.reset) = .next t ∧ t.fsm = .helloSent
    ∧ t.fsm ≠ State.reset.fsm ∧ ∃ f, t.txHist = [f] := ⟨_, rfl, rfl, by decide, _, rfl⟩

/-- KEEPALIVE, DISCONNECT and CRC16 accepted. -/
theorem witness_step_commands :
    (∃ t, step (commanded 0x11 (core .established false)) = .next t ∧ t.kaPending = true)
    ∧ (∃ t, step (commanded 0x12 (core .established false)) = .next t ∧ t.ok = true ∧ ∃ f, t.txHist = [f])
    ∧ (∃ t, step (commanded 0x01 State.reset) = .next t ∧ t.ok = true ∧ t.busy = false) :=
  ⟨⟨_, rfl, rfl⟩, ⟨_, rfl, rfl, _, rfl⟩, _, rfl, rfl, rfl⟩

/-- EstablishedAndFailedLeftOnlyByReset: reset leaves both. -/
theorem witness_step_reset :
    (∃ t, step { core .failed false with pending := [.rst] } = .next t ∧ t.fsm ≠ .failed)
    ∧ (∃ t, step { core .established true with pending := [.rst] } = .next t ∧ t.fsm ≠ .established) :=
  ⟨⟨_, rfl, by decide⟩, _, rfl, by decide⟩

/-- ResultRegistersWrittenOnlyByDecodes: a DECODE of a frame that decodes. -/
theorem witness_step_decode :
    let s : State := { State.reset with ibuf := wire 0x05 (goodHeader 0x05 []) [] }
    ∃ t, step (commanded 0x03 s) = .next t ∧ t.rType = 0x05 := by
  intro s
  have h : step (commanded 0x03 s) = .next (decodeRule Config.params (clearOutcome s)) := rfl
  have hd : decodeFrame Config.params (clearOutcome s).ibuf = _ := witness_good_read.2.2
  exact ⟨_, h, by rw [decodeRule, hd]; rfl⟩

/-- ReceiveHistoryIsTheAcceptedEvents, FsmMovesOnlyAsTheTableSays, CompletionLeavesAnOutcome: a closure completes. -/
theorem witness_step_closure :
    let s : State := { core .helloSent false with pending := [.rx []] }
    ∃ t, s.fetch = some (.rx [], core .helloSent false) ∧ step s = .next t ∧ t.busy = false ∧ t.rxHist = [.closed]
      ∧ t.fsm = .failed := ⟨_, rfl, rfl, rfl, rfl, rfl⟩

/-- OutcomeStaysUntilTheNextCommand: a read, after a command that failed. -/
theorem witness_outcome_stays :
    let s : State := { core .failed false with err := 8, pending := [.host (.readReg 0x0A)] }
    ∃ s' t, s.fetch = some (.host (.readReg 0x0A), s') ∧ step s = .next t
      ∧ (∀ v, Event.host (.readReg 0x0A) ≠ .host (.writeReg 0x08 v)) ∧ (∀ b, Event.host (.readReg 0x0A) ≠ .rx b)
      ∧ Event.host (.readReg 0x0A) ≠ .rst := ⟨_, _, rfl, rfl, nofun, nofun, nofun⟩

/-- LaterOperandWriteDoesNotAffectACommand: a busy core and a packet it completes on. -/
theorem witness_later_write :
    (core .helloSent false).busy = true
    ∧ ∃ t, exec (frameRow 0x05 (goodHeader 0x05 []) []) (core .helloSent false) = .next t := by
  refine ⟨rfl, acceptFrame Config.params (wire 0x05 (goodHeader 0x05 []) []) (core .helloSent false), ?_⟩
  rw [exec_frameRow, receiveFrame, if_neg (by decide), if_neg]
  simp [wire_length, Params.maxFrame, headerLen]

/-- CodecResultsDependOnOperandsAlone: a fresh core and one after a failed handshake, with one IBUF and operands. -/
theorem witness_codec_operands :
    let r : State := { core .failed false with err := 4, rType := 5, obuf := [7] }
    State.reset.busy = false ∧ r.busy = false ∧ State.reset.ibuf = r.ibuf ∧ State.reset.opType = r.opType
    ∧ State.reset.opStream = r.opStream ∧ State.reset.opSeq = r.opSeq ∧ State.reset.opFlags = r.opFlags
    ∧ State.reset.clkNow = r.clkNow := ⟨rfl, rfl, rfl, rfl, rfl, rfl, rfl, rfl⟩

/-- WaitWithoutAnEventNeverEnds: both forms of `pending` (P6 is the first). -/
theorem witness_stuck :
    (core .helloSent false).busy = true ∧ (core .helloSent false).pending = []
    ∧ (commanded 0x01 (core .established true)).busy = true
    ∧ (commanded 0x01 (core .established true)).pending = .host (.writeReg 0x08 0x01) :: [] := ⟨rfl, rfl, rfl, rfl⟩

/-- WaitWithoutAnEventNeverEnds, its first half: the host reads STATUS and the ports change while the core waits. -/
theorem witness_wait :
    let s : State := { core .helloSent false with pending := [.host (.readReg 0x09), .ports 5 6] }
    s.busy = true ∧ (∀ e ∈ s.pending, e ≠ .rst ∧ ∀ b, e ≠ .rx b)
    ∧ (Host.Core.run Sys2Proof.core 2 s : Host.Outcome State Fault Refusal)
      = .next { core .helloSent false with clkNow := 5, nonceIn := 6, hostReads := [.reg 0x09] } := by
  refine ⟨rfl, ?_, rfl⟩
  intro e h
  simp at h
  rcases h with rfl | rfl <;> simp

/-- KnownEventsNeverStopTheMachine: events that the spec knows, among them a read and a load. -/
theorem witness_safe :
    ({ State.reset with pending := [.rx [0x4C], .host (.loadIbuf [0x4C]), .rst] }).Safe Config.params := by
  intro e h
  simp at h
  rcases h with rfl | rfl | rfl <;> simp [Event.bounded, Params.maxFrame, headerLen]

/-- The two faults of an event that the spec does not know: a read and a load that are too long. -/
theorem test_oversize :
    step { core .helloSent false with pending := [.rx tooLong] } = .fault .oversizeRead
    ∧ step { State.reset with pending := [.host (.loadIbuf tooLong)] } = .refused .oversizeLoad := by
  constructor
  · have h : step { core .helloSent false with pending := [.rx tooLong] }
        = receiveFrame Config.params tooLong (core .helloSent false) := by
      have hd : decode .rx tooLong = .ok (frameRow (u8 tooLong 2) (Header.read tooLong) (tooLong.drop headerLen)) := by
        have := tooLong_length
        change decodeRead tooLong = _
        rw [decodeRead, if_neg]
        simp only [Params.maxFrame] at this
        omega
      rw [← exec_read hd]
      have hc : (Event.rx tooLong).carried = some (.rx, tooLong) := by
        simp [tooLong, List.replicate_succ, Event.carried]
      have hf : ({ core .helloSent false with pending := [.rx tooLong] }).fetch = some (.rx tooLong, core .helloSent false) :=
        rfl
      simp only [step, hf, hc, hd]
    rw [h, receiveFrame, if_neg (by decide), if_pos tooLong_length]
  · change loadIbuf Config.params tooLong State.reset = _
    rw [loadIbuf, if_pos tooLong_length]

end Sys2Proof.Tests
end

/-!
# What one step does, by the event it takes

`CommandEffect`, `ReceiveEffect` and `StepEffect` say once, with a named case for each branch of the rules, what an
accepted command, an accepted receive event and a whole step can do. Every statement about all steps is a case analysis
of `step_effect`.
-/

namespace Sys2Proof.Machine

/-- Everything an accepted command with code `c` can do from `s` (30_encoding.md R60 to R62). -/
inductive CommandEffect (p : Params) (s : State) (c : Byte) : State → Prop
  /-- CRC16 (40_crc.md R76). -/
  | checksum (hc : c = 0x01#8) : CommandEffect p s c (succeed (setCrcResult (crc16 s.ibuf) (clearOutcome s)))
  /-- ENCODE of a payload that fits (41_codec.md R85). -/
  | encoded (hc : c = 0x02#8) (hfits : s.ibuf.length ≤ p.maxPayload) :
      CommandEffect p s c (succeed (setObuf
        (encodeFrame p s.opType s.opStream s.opSeq s.opFlags s.ibuf (sampleClock s)) (clearOutcome s)))
  /-- ENCODE of a payload that does not fit (41_codec.md R85). -/
  | tooLong (hc : c = 0x02#8) (hlong : p.maxPayload < s.ibuf.length) :
      CommandEffect p s c (raise .payloadTooLong (clearOutcome s))
  /-- DECODE of a frame that decodes (41_codec.md R93). -/
  | decoded (pk : Packet) (hc : c = 0x03#8) (hd : decodeFrame p s.ibuf = .ok pk) :
      CommandEffect p s c (succeed (latch pk (clearOutcome s)))
  /-- DECODE of bytes that do not decode (41_codec.md R93). -/
  | undecoded (e : ErrorCode) (hc : c = 0x03#8) (hd : decodeFrame p s.ibuf = .err e) :
      CommandEffect p s c (raise e (clearOutcome s))
  /-- CONNECT in Idle (42_handshake.md R100). -/
  | connected (hc : c = 0x10#8) (hs : s.fsm = .idle) :
      CommandEffect p s c (moveTo .helloSent (tx (helloFrame p s) (clearOutcome s)))
  /-- KEEPALIVE in Established (43_liveness.md R115). -/
  | waiting (hc : c = 0x11#8) (hs : s.fsm = .established) :
      CommandEffect p s c (setKaPending true (tx (controlFrame p 0x05#8 s) (clearOutcome s)))
  /-- DISCONNECT in Established (43_liveness.md R119). -/
  | disconnected (hc : c = 0x12#8) (hs : s.fsm = .established) :
      CommandEffect p s c (succeed (tx (controlFrame p 0x06#8 s) (clearOutcome s)))
  /-- A reserved code, or a command in a state where it is illegal (60_exceptions.md R158). -/
  | illegal (hcodec : c ∉ [0x01#8, 0x02#8, 0x03#8]) (hconnect : c = 0x10#8 → s.fsm ≠ .idle)
      (hsession : c ∈ [0x11#8, 0x12#8] → s.fsm ≠ .established) :
      CommandEffect p s c (raise .illegalCommand (clearOutcome s))

/-- A read completes the handshake: it is a HandshakeResponse that decodes and whose payload gives an acceptable
identifier (42_handshake.md R103). -/
def CompletesHandshake (p : Params) (b : Bytes) : Prop :=
  ∃ pk i, decodeFrame p b = .ok pk ∧ pk.packetType = 0x04#8 ∧ p.ackParse pk.payload = some i ∧ i.length ≤ p.sidMax

/-- Everything an accepted read of `b`, closure included, can do from `s` (44_interfaces.md R139). -/
inductive ReceiveEffect (p : Params) (s : State) (b : Bytes) : State → Prop
  /-- Closure (42_handshake.md R102, 43_liveness.md R117). -/
  | closed (hb : b = []) : ReceiveEffect p s b (raise .connectionClosed (recordRx .closed s))
  /-- Bytes that do not decode. -/
  | undecoded (e : ErrorCode) (hd : decodeFrame p b = .err e) :
      ReceiveEffect p s b (raise e (recordRx (.frame b) s))
  /-- A packet that the core does not wait for, or whose identifier is unacceptable. -/
  | unacceptable (e : ErrorCode) (pk : Packet) (hd : decodeFrame p b = .ok pk)
      (hn : s.fsm = .helloSent → ¬ CompletesHandshake p b) :
      ReceiveEffect p s b (raise e (latch pk (recordRx (.frame b) s)))
  /-- The handshake completes (42_handshake.md R103). -/
  | established (pk : Packet) (i : Bytes) (hs : s.fsm = .helloSent) (hd : decodeFrame p b = .ok pk)
      (hi : i.length ≤ p.sidMax) (hh : CompletesHandshake p b) :
      ReceiveEffect p s b (establish i (latch pk (recordRx (.frame b) s)))
  /-- The keepalive is answered (43_liveness.md R116). -/
  | answered (pk : Packet) (hs : s.fsm ≠ .helloSent) (hd : decodeFrame p b = .ok pk) :
      ReceiveEffect p s b (setKaPending false (succeed (latch pk (recordRx (.frame b) s))))

/-- The events that are neither a command, nor a receive event, nor reset. -/
inductive Event.Plain : Event → Prop
  | write (n : BitVec 8) (v : BitVec 64) (hn : n ≠ 0x08#8) : Plain (.host (.writeReg n v))
  | readReg (n : BitVec 8) : Plain (.host (.readReg n))
  | load (b : Bytes) : Plain (.host (.loadIbuf b))
  | readObuf : Plain (.host .readObuf)
  | readSid : Plain (.host .readSid)
  | ports (clk : BitVec 64) (nonce : BitVec 256) : Plain (.ports clk nonce)

/-- Everything a step can do from `s`, by the event it takes; `rest` are the events it leaves. -/
inductive StepEffect (p : Params) (s : State) : State → Prop
  | wait (hf : s.fetch = none) : StepEffect p s s
  | command (v : BitVec 64) (rest : List Event) {t : State}
      (hf : s.fetch = some (.host (.writeReg 0x08#8 v), setPending rest s)) (hb : s.busy = false)
      (ht : CommandEffect p (setPending rest s) (v.setWidth 8) t) : StepEffect p s t
  | receive (b : Bytes) (rest : List Event) {t : State} (hf : s.fetch = some (.rx b, setPending rest s))
      (hb : s.busy = true) (hl : b.length ≤ p.maxFrame) (ht : ReceiveEffect p (setPending rest s) b t) :
      StepEffect p s t
  | reset (rest : List Event) (hf : s.fetch = some (.rst, setPending rest s)) :
      StepEffect p s (resetCore (setPending rest s))
  | plain (e : Event) (rest : List Event) {t : State} (hf : s.fetch = some (e, setPending rest s)) (he : e.Plain)
      (ht : outside e (setPending rest s) = .next t) : StepEffect p s t

/-- The six result registers are in `t` what they are in `s` (10_state.md R17). -/
def ResultsKept (s t : State) : Prop :=
  t.rType = s.rType ∧ t.rStream = s.rStream ∧ t.rSeq = s.rSeq ∧ t.rTs = s.rTs ∧ t.rFlags = s.rFlags
  ∧ t.rCsum = s.rCsum

/-- The six result registers and OBUF hold a packet (10_state.md R16, R17). -/
def Holds (pk : Packet) (t : State) : Prop :=
  t.rType = pk.packetType ∧ t.rStream = pk.streamId ∧ t.rSeq = pk.sequenceNumber ∧ t.rTs = pk.timestamp
  ∧ t.rFlags = pk.flags ∧ t.rCsum = pk.checksum ∧ t.obuf = pk.payload

/-! ## The model does exactly these -/

theorem encodeRule_effect (p : Params) (s : State) :
    CommandEffect p s 0x02#8 (encodeRule p (clearOutcome s)) := by
  unfold encodeRule
  split
  next hlong => exact .tooLong rfl hlong
  next hfits => exact .encoded rfl (Nat.le_of_not_lt hfits)

theorem decodeRule_effect (p : Params) (s : State) :
    CommandEffect p s 0x03#8 (decodeRule p (clearOutcome s)) := by
  unfold decodeRule
  split
  next e hd => exact .undecoded e rfl hd
  next pk hd => exact .decoded pk rfl hd

theorem connectRule_effect (p : Params) (s : State) :
    CommandEffect p s 0x10#8 (connectRule p (clearOutcome s)) := by
  unfold connectRule
  split
  next hidle => exact .connected rfl hidle
  next hidle => exact .illegal (by decide) (fun _ => hidle) (by simp)

theorem keepaliveRule_effect (p : Params) (s : State) :
    CommandEffect p s 0x11#8 (keepaliveRule p (clearOutcome s)) := by
  unfold keepaliveRule
  split
  next hest => exact .waiting rfl hest
  next hest => exact .illegal (by decide) nofun (fun _ => hest)

theorem disconnectRule_effect (p : Params) (s : State) :
    CommandEffect p s 0x12#8 (disconnectRule p (clearOutcome s)) := by
  unfold disconnectRule
  split
  next hest => exact .disconnected rfl hest
  next hest => exact .illegal (by decide) nofun (fun _ => hest)

theorem exec_command_effect {c : Byte} {s t : State} (hb : s.busy = false)
    (h : exec (decodeCommand c) s = .next t) : CommandEffect Config.params s c t := by
  rcases exec_command_cases hb h with
    ⟨rfl, rfl⟩ | ⟨rfl, rfl⟩ | ⟨rfl, rfl⟩ | ⟨rfl, rfl⟩ | ⟨rfl, rfl⟩ | ⟨rfl, rfl⟩ | ⟨hc, rfl⟩
  · exact .checksum rfl
  · exact encodeRule_effect _ s
  · exact decodeRule_effect _ s
  · exact connectRule_effect _ s
  · exact keepaliveRule_effect _ s
  · exact disconnectRule_effect _ s
  · simp only [namedCommands, List.mem_cons, List.not_mem_nil, or_false, not_or] at hc
    exact .illegal (by simp [hc]) (by simp [hc]) (by simp [hc])

theorem acceptFrame_effect (p : Params) (b : Byte) (bs : Bytes) (s : State) :
    ReceiveEffect p s (b :: bs) (acceptFrame p (b :: bs) s) := by
  rcases acceptFrame_cases p (b :: bs) s with
    ⟨e, hd, ht⟩ | ⟨e, pk, hd, hn, ht⟩ | ⟨hs, pk, i, hd, hty, ha, hi, ht⟩ | ⟨hs, pk, hd, _, ht⟩ <;> rw [ht]
  · exact .undecoded e hd
  · refine .unacceptable e pk hd ?_
    rintro hs ⟨pk', i, hd', hty, ha, hi⟩
    obtain rfl : pk = pk' := by simpa [hd] using hd'
    exact hn hs hty i ha hi
  · exact .established pk i hs hd hi ⟨pk, i, hd, hty, ha, hi⟩
  · exact .answered pk hs hd

theorem receiveClosed_effect (p : Params) {s : State} (hb : s.busy = true) :
    ReceiveEffect p s [] (receiveClosed s) := by
  rw [receiveClosed, if_pos hb]
  exact .closed rfl

/-- Every step that gives a next state has one of the effects of `StepEffect`. -/
theorem step_effect {s t : State} (h : step s = .next t) : StepEffect Config.params s t := by
  rcases step_cases h with
    ⟨hf, rfl⟩ | ⟨v, s', hf, hb, hx⟩ | ⟨b, bs, s', hf, hb, hl, rfl⟩ | ⟨e, s', hf, hc, hx⟩
  · exact .wait hf
  all_goals obtain ⟨rest, _, _, rfl⟩ := fetch_spec hf
  · exact .command v rest hf hb (exec_command_effect hb hx)
  · exact .receive _ rest hf hb hl (acceptFrame_effect _ b bs _)
  cases e with
  | host op =>
    cases op with
    | writeReg n v => exact .plain _ rest hf (.write n v (by rintro rfl; cases hc)) hx
    | readReg n => exact .plain _ rest hf (.readReg n) hx
    | loadIbuf b => exact .plain _ rest hf (.load b) hx
    | readObuf => exact .plain _ rest hf .readObuf hx
    | readSid => exact .plain _ rest hf .readSid hx
  | rx b =>
    cases b with
    | nil =>
      cases hx
      have hb := fetch_rx_busy hf
      exact .receive [] rest hf hb (Nat.zero_le _) (receiveClosed_effect _ hb)
    | cons b bs => cases hc
  | rst => cases hx; exact .reset rest hf
  | ports clk nonce => exact .plain _ rest hf (.ports clk nonce) hx

/-- A step whose event stands first and carries no instruction does what the event does. -/
theorem step_outside_head {s : State} {e : Event} {rest : List Event} (hp : s.pending = e :: rest)
    (he : e.enabled s.busy false = true) (hc : e.carried = none) : step s = outside e (setPending rest s) := by
  simp [step, fetch_head hp he, hc]

end Sys2Proof.Machine

/-!
# The invariant of the machine

One lemma per shared operation: under what it keeps `State.Inv`.
-/

namespace Sys2Proof.Machine

section
variable {p : Params} {s t : State}

/-- A busy core that meets the invariant waits in one place only: a handshake has no keepalive wait. -/
theorem State.Inv.kaPending_of_helloSent (h : s.Inv p) (hs : s.fsm = .helloSent) : s.kaPending = false := by
  cases hk : s.kaPending with
  | false => rfl
  | true => simpa [hs] using h.wait_established hk

/-- SID_VALID is 0 and SID empty outside Established. -/
theorem State.Inv.no_sid (h : s.Inv p) (hs : s.fsm ≠ .established) : s.sidValid = false ∧ s.sid = [] := by
  have hv : s.sidValid = false := Bool.eq_false_iff.2 fun hv => hs (h.sid_valid.1 hv)
  exact ⟨hv, h.sid_empty hv⟩

theorem inv_reset (p : Params) : State.reset.Inv p where
  wait_established := nofun
  sid_valid := by decide
  sid_empty _ := rfl
  buffers := reset_buffersWf p
  outcome := nofun
  busy_outcome := by decide
  err_code := by decide

/-- The invariant speaks of the FSM, the wait, the outcome, the identifier and the buffers' form only. -/
theorem inv_of_eq (h : s.Inv p) (hfsm : t.fsm = s.fsm) (hka : t.kaPending = s.kaPending) (hok : t.ok = s.ok)
    (herr : t.err = s.err) (hsid : t.sid = s.sid) (hvalid : t.sidValid = s.sidValid)
    (hbuf : t.buffersWf p = true) : t.Inv p where
  wait_established := by rw [hka, hfsm]; exact h.wait_established
  sid_valid := by rw [hvalid, hfsm]; exact h.sid_valid
  sid_empty := by rw [hvalid, hsid]; exact h.sid_empty
  buffers := hbuf
  outcome := by rw [hok, herr]; exact h.outcome
  busy_outcome := by rw [State.busy, hfsm, hka, hok, herr]; exact h.busy_outcome
  err_code := by rw [herr]; exact h.err_code

theorem inv_setPending (h : s.Inv p) (es : List Event) : (setPending es s).Inv p :=
  inv_of_eq h rfl rfl rfl rfl rfl rfl h.buffers

theorem inv_tx (h : s.Inv p) (f : Bytes) : (tx f s).Inv p :=
  inv_of_eq h rfl rfl rfl rfl rfl rfl h.buffers

theorem inv_recordRx (h : s.Inv p) (e : RxEvent) : (recordRx e s).Inv p :=
  inv_of_eq h rfl rfl rfl rfl rfl rfl h.buffers

theorem inv_latch (h : s.Inv p) {f : Bytes} {pk : Packet} (hd : decodeFrame p f = .ok pk)
    (hf : f.length ≤ p.maxFrame) : (latch pk s).Inv p :=
  inv_of_eq h rfl rfl rfl rfl rfl rfl (latch_buffersWf p hd hf h.buffers)

theorem inv_setObuf (h : s.Inv p) {f : Bytes} (hf : f.length ≤ p.maxFrame) : (setObuf f s).Inv p := by
  obtain ⟨hi, _, hs⟩ := (buffersWf_iff p s).1 h.buffers
  exact inv_of_eq h rfl rfl rfl rfl rfl rfl ((buffersWf_iff p _).2 ⟨hi, hf, hs⟩)

theorem inv_setCrcResult (h : s.Inv p) (v : BitVec 16) : (setCrcResult v s).Inv p :=
  inv_of_eq h rfl rfl rfl rfl rfl rfl h.buffers

theorem inv_clearOutcome (h : s.Inv p) : (clearOutcome s).Inv p where
  wait_established := h.wait_established
  sid_valid := h.sid_valid
  sid_empty := h.sid_empty
  buffers := h.buffers
  outcome _ := rfl
  busy_outcome _ := ⟨rfl, rfl⟩
  err_code := by simp

/-- After an error the core is not busy (60_exceptions.md R160). -/
theorem raise_ends_wait (h : s.Inv p) (e : ErrorCode) : (raise e s).busy = false := by
  rw [not_busy_iff]
  by_cases hs : s.fsm = .helloSent
  · simp [hs, h.kaPending_of_helloSent hs]
  · simp [hs]

theorem inv_raise (h : s.Inv p) (e : ErrorCode) : (raise e s).Inv p := by
  have hb := raise_ends_wait h e
  have hsid : (raise e s).fsm = .established ↔ s.fsm = .established := by
    by_cases hs : s.fsm = .helloSent <;> simp [hs]
  exact {
    wait_established := fun hk => absurd hk (by rw [((not_busy_iff _).1 hb).2]; decide)
    sid_valid := h.sid_valid.trans hsid.symm
    sid_empty := h.sid_empty
    buffers := raise_buffersWf p e h.buffers
    outcome := nofun
    busy_outcome := by simp [hb]
    err_code := (code_range e).2 }

theorem inv_succeed (h : s.Inv p) (hb : s.busy = false) : (succeed s).Inv p where
  wait_established := h.wait_established
  sid_valid := h.sid_valid
  sid_empty := h.sid_empty
  buffers := h.buffers
  outcome _ := rfl
  busy_outcome hb' := absurd (hb.symm.trans hb') Bool.false_ne_true
  err_code := by simp

/-- A core in Idle whose outcome is cleared may begin the handshake. -/
theorem inv_begin_handshake (h : s.Inv p) (hs : s.fsm = .idle) (hka : s.kaPending = false) (hok : s.ok = false)
    (herr : s.err = 0#8) : (moveTo .helloSent s).Inv p := by
  obtain ⟨hvalid, hsid⟩ := h.no_sid (by simp [hs])
  exact {
    wait_established := by simp [hka]
    sid_valid := by simp [hvalid]
    sid_empty := fun _ => hsid
    buffers := h.buffers
    outcome := fun _ => herr
    busy_outcome := fun _ => ⟨hok, herr⟩
    err_code := h.err_code }

/-- A core in Established whose outcome is cleared may begin a keepalive wait. -/
theorem inv_begin_wait (h : s.Inv p) (hs : s.fsm = .established) (hok : s.ok = false) (herr : s.err = 0#8) :
    (setKaPending true s).Inv p where
  wait_established _ := hs
  sid_valid := h.sid_valid
  sid_empty := h.sid_empty
  buffers := h.buffers
  outcome _ := herr
  busy_outcome _ := ⟨hok, herr⟩
  err_code := h.err_code

/-- The handshake completes in Established, with the identifier and no wait. -/
theorem inv_establish (h : s.Inv p) (hs : s.fsm = .helloSent) {i : Bytes} (hi : i.length ≤ p.sidMax) :
    (establish i s).Inv p where
  wait_established _ := rfl
  sid_valid := by simp
  sid_empty := nofun
  buffers := establish_buffersWf p hi h.buffers
  outcome _ := rfl
  busy_outcome := by simp [busy_iff, h.kaPending_of_helloSent hs]
  err_code := by simp

/-- The keepalive is answered: the wait ends with success. -/
theorem inv_end_wait (h : s.Inv p) (hs : s.fsm ≠ .helloSent) : (setKaPending false (succeed s)).Inv p where
  wait_established := nofun
  sid_valid := h.sid_valid
  sid_empty := h.sid_empty
  buffers := h.buffers
  outcome _ := rfl
  busy_outcome := by simp [busy_iff, hs]
  err_code := by simp

/-- Reset gives every element that the invariant speaks of its value of `State.reset`. -/
theorem inv_resetCore (p : Params) (s : State) : (resetCore s).Inv p :=
  inv_of_eq (inv_reset p) rfl rfl rfl rfl rfl rfl (resetCore_buffersWf p s)

/-! ## Each kind of event keeps it -/

theorem CommandEffect.keeps_inv {c : Byte} (ht : CommandEffect p s c t) (h : s.Inv p) (hb : s.busy = false) :
    t.Inv p := by
  have h0 := inv_clearOutcome h
  cases ht with
  | checksum hc => exact inv_succeed (inv_setCrcResult h0 _) hb
  | encoded hc hfits =>
    exact inv_succeed (inv_setObuf h0 (by simp [encodeFrame_length, Params.maxFrame]; omega)) hb
  | decoded pk hc hd => exact inv_succeed (inv_latch h0 hd ((buffersWf_iff p s).1 h.buffers).1) hb
  | connected hc hs => exact inv_begin_handshake (inv_tx h0 _) hs ((not_busy_iff s).1 hb).2 rfl rfl
  | waiting hc hs => exact inv_begin_wait (inv_tx h0 _) hs rfl rfl
  | disconnected hc hs => exact inv_succeed (inv_tx h0 _) hb
  | tooLong | undecoded | illegal => exact inv_raise h0 _

theorem ReceiveEffect.keeps_inv {b : Bytes} (ht : ReceiveEffect p s b t) (h : s.Inv p)
    (hl : b.length ≤ p.maxFrame) : t.Inv p := by
  have hr := inv_recordRx h (.frame b)
  cases ht with
  | closed hb => exact inv_raise (inv_recordRx h .closed) _
  | undecoded e hd => exact inv_raise hr e
  | unacceptable e pk hd hn => exact inv_raise (inv_latch hr hd hl) e
  | established pk i hs hd hi hh => exact inv_establish (inv_latch hr hd hl) hs hi
  | answered pk hs hd => exact inv_end_wait (inv_latch hr hd hl) hs

/-- A plain event leaves the identifier and every result. -/
theorem outside_keeps_results {e : Event} (ht : outside e s = .next t) (he : e.Plain) :
    t.sid = s.sid ∧ t.sidValid = s.sidValid ∧ t.crcResult = s.crcResult ∧ ResultsKept s t := by
  unfold ResultsKept
  cases he with
  | load b =>
    simp only [outside, loadIbuf] at ht
    split at ht <;> cases ht
    simp
  | write | readReg | readObuf | readSid | ports => cases ht; simp

end

/-- A plain event keeps the buffers' form. -/
theorem outside_buffersWf {s t : State} {e : Event} (ht : outside e s = .next t) (he : e.Plain)
    (h : s.buffersWf Config.params = true) : t.buffersWf Config.params = true := by
  cases he with
  | load b => exact loadIbuf_buffersWf _ b h ht
  | write | readReg | readObuf | readSid | ports => cases ht; exact h

/-- A plain event leaves the FSM, the wait and the outcome. -/
theorem outside_keeps_session {s t : State} {e : Event} (ht : outside e s = .next t) (he : e.Plain) :
    t.fsm = s.fsm ∧ t.kaPending = s.kaPending ∧ t.ok = s.ok ∧ t.err = s.err := by
  obtain ⟨hfsm, hka, hok, herr, _⟩ := outside_frame ht (by cases he <;> nofun) (by cases he <;> nofun)
  exact ⟨hfsm, hka, hok, herr⟩

theorem outside_keeps_inv {s t : State} {e : Event} (ht : outside e s = .next t) (he : e.Plain)
    (h : s.Inv Config.params) : t.Inv Config.params := by
  obtain ⟨hfsm, hka, hok, herr⟩ := outside_keeps_session ht he
  obtain ⟨hsid, hvalid, _⟩ := outside_keeps_results ht he
  exact inv_of_eq h hfsm hka hok herr hsid hvalid (outside_buffersWf ht he h.buffers)

end Sys2Proof.Machine

/-!
# What each kind of event does to one part of the state
-/

namespace Sys2Proof.Machine

section
variable {p : Params} {s t : State}

/-! ## The FSM and the wait (10_state.md R25) -/

theorem CommandEffect.fsm_wait {c : Byte} (ht : CommandEffect p s c t) (hb : s.busy = false) :
    (c = 0x10#8 ∧ s.fsm = .idle → t.fsm = .helloSent ∧ t.kaPending = s.kaPending)
    ∧ (c = 0x11#8 ∧ s.fsm = .established → s.kaPending = false ∧ t.fsm = .established ∧ t.kaPending = true)
    ∧ (¬ (c = 0x10#8 ∧ s.fsm = .idle) → ¬ (c = 0x11#8 ∧ s.fsm = .established) →
        t.fsm = s.fsm ∧ t.kaPending = s.kaPending) := by
  obtain ⟨hfsm, hka⟩ := (not_busy_iff s).1 hb
  cases ht with
  | connected hc hs => simp [hc, hs]
  | waiting hc hs => simp [hc, hs, hka]
  | illegal _ hconnect hsession =>
    exact ⟨fun h => absurd h.2 (hconnect h.1), fun h => absurd h.2 (hsession (by simp [h.1])),
      fun _ _ => by simp [hfsm, hka]⟩
  | checksum hc | encoded hc | decoded pk hc | disconnected hc => simp [hc]
  | tooLong hc | undecoded e hc => simp [hc, hfsm, hka]

/-- A read that does not decode completes no handshake. -/
theorem not_completesHandshake {b : Bytes} {e : ErrorCode} (hd : decodeFrame p b = .err e) :
    ¬ CompletesHandshake p b := fun ⟨pk, i, hd', _⟩ => by simp [hd] at hd'

/-- A read of no bytes does not decode. -/
theorem decodeFrame_nil (p : Params) : decodeFrame p [] = .err .tooShort := rfl

theorem ReceiveEffect.fsm_of_helloSent {b : Bytes} (ht : ReceiveEffect p s b t) (hs : s.fsm = .helloSent) :
    (CompletesHandshake p b → t.fsm = .established) ∧ (¬ CompletesHandshake p b → t.fsm = .failed)
    ∧ t.kaPending = s.kaPending := by
  cases ht with
  | closed hb =>
    subst hb
    exact ⟨fun h => absurd h (not_completesHandshake (decodeFrame_nil p)), fun _ => by simp [hs], by simp [hs]⟩
  | undecoded e hd =>
    exact ⟨fun h => absurd h (not_completesHandshake hd), fun _ => by simp [hs], by simp [hs]⟩
  | unacceptable e pk hd hn => exact ⟨fun h => absurd h (hn hs), fun _ => by simp [hs], by simp [hs]⟩
  | established pk i _ hd hi hh => exact ⟨fun _ => rfl, fun hn => absurd hh hn, rfl⟩
  | answered pk hs' hd => exact absurd hs hs'

theorem ReceiveEffect.fsm_of_keepalive {b : Bytes} (ht : ReceiveEffect p s b t) (hs : s.fsm ≠ .helloSent) :
    t.fsm = s.fsm ∧ t.kaPending = false := by
  cases ht with
  | established pk i hs' => exact absurd hs' hs
  | closed | undecoded | unacceptable | answered => simp [hs]

/-! ## CRC_RESULT (10_state.md R18) -/

theorem CommandEffect.crcResult {c : Byte} (ht : CommandEffect p s c t) :
    t.crcResult = if c = 0x01#8 then crc16 s.ibuf else s.crcResult := by
  cases ht with
  | illegal hcodec => exact (if_neg fun hc => hcodec (by simp [hc])).symm
  | checksum hc | encoded hc | tooLong hc | decoded pk hc | undecoded e hc | connected hc | waiting hc
  | disconnected hc => simp [hc]

theorem ReceiveEffect.crcResult {b : Bytes} (ht : ReceiveEffect p s b t) : t.crcResult = s.crcResult := by
  cases ht <;> rfl

/-! ## The result registers (10_state.md R17) -/

theorem CommandEffect.holds_of_decode {c : Byte} {pk : Packet} (ht : CommandEffect p s c t) (hc : c = 0x03#8)
    (hd : decodeFrame p s.ibuf = .ok pk) : Holds pk t := by
  cases ht with
  | decoded pk' _ hd' =>
    obtain rfl : pk = pk' := by simpa [hd] using hd'
    simp [Holds]
  | undecoded e _ hd' => simp [hd] at hd'
  | illegal hcodec => simp [hc] at hcodec
  | checksum hc' | encoded hc' | tooLong hc' | connected hc' | waiting hc' | disconnected hc' => simp [hc] at hc'

theorem CommandEffect.keeps_results {c : Byte} (ht : CommandEffect p s c t)
    (hd : c = 0x03#8 → ∀ pk, decodeFrame p s.ibuf ≠ .ok pk) : ResultsKept s t := by
  cases ht with
  | decoded pk hc hd' => exact absurd hd' (hd hc pk)
  | checksum | encoded | tooLong | undecoded | connected | waiting | disconnected | illegal => simp [ResultsKept]

theorem ReceiveEffect.holds_of_decode {b : Bytes} {pk : Packet} (ht : ReceiveEffect p s b t)
    (hd : decodeFrame p b = .ok pk) : Holds pk t := by
  cases ht with
  | closed hb => subst hb; simp [decodeFrame_nil] at hd
  | undecoded e hd' => simp [hd] at hd'
  | unacceptable e pk' hd' | established pk' i _ hd' | answered pk' _ hd' =>
    obtain rfl : pk = pk' := by simpa [hd] using hd'
    simp [Holds]

theorem ReceiveEffect.keeps_results {b : Bytes} (ht : ReceiveEffect p s b t)
    (hd : ∀ pk, decodeFrame p b ≠ .ok pk) : ResultsKept s t := by
  cases ht with
  | closed | undecoded => simp [ResultsKept]
  | unacceptable e pk hd' | established pk i _ hd' | answered pk _ hd' => exact absurd hd' (hd pk)

/-! ## The outcome of a completion (10_state.md R20) -/

/-- OK = 1 with ERR = 0, or OK = 0 with an error code. -/
def Completed (t : State) : Prop := (t.ok = true ∧ t.err = 0#8) ∨ (t.ok = false ∧ t.err ≠ 0#8)

theorem completed_raise (e : ErrorCode) (s : State) : Completed (raise e s) := .inr ⟨rfl, (code_range e).1⟩

theorem CommandEffect.completed {c : Byte} (ht : CommandEffect p s c t) (hb : t.busy = false) : Completed t := by
  cases ht with
  | checksum | encoded | decoded | disconnected => exact .inl ⟨rfl, rfl⟩
  | connected | waiting => simp [State.busy] at hb
  | tooLong | undecoded | illegal => exact completed_raise _ _

theorem ReceiveEffect.completed {b : Bytes} (ht : ReceiveEffect p s b t) : Completed t := by
  cases ht with
  | closed | undecoded | unacceptable => exact completed_raise _ _
  | established | answered => exact .inl ⟨rfl, rfl⟩

end

/-! ## The STATUS word and the operand registers (10_state.md R14, R22) -/

/-- The fields of STATUS do not overlap. -/
theorem toNat_status_fields : ∀ (f : BitVec 2) (ka busy ok valid : Bool),
    (0#2 ++ BitVec.ofBool valid ++ BitVec.ofBool ok ++ BitVec.ofBool busy ++ BitVec.ofBool ka ++ f).toNat
      = f.toNat + 4 * ka.toNat + 8 * busy.toNat + 16 * ok.toNat + 32 * valid.toNat := by decide

theorem toNat_statusWord (s : State) :
    (statusWord s).toNat
      = s.fsm.code.toNat + 4 * s.kaPending.toNat + 8 * s.busy.toNat + 16 * s.ok.toNat + 32 * s.sidValid.toNat :=
  toNat_status_fields _ _ _ _ _

theorem readReg_unknown (s : State) {n : BitVec 8}
    (hn : n ∉ [0x00#8, 0x01#8, 0x02#8, 0x03#8, 0x09#8, 0x0A#8, 0x0B#8, 0x0C#8, 0x0D#8, 0x10#8, 0x11#8, 0x12#8, 0x13#8,
      0x14#8, 0x15#8, 0x18#8]) : readReg s n = 0 := by
  simp only [List.mem_cons, List.not_mem_nil, or_false, not_or] at hn
  simp [readReg, hn]

/-- A write changes the operand register it names, to the low bits of the value, and no other. -/
theorem writeOperand_eq (n : BitVec 8) (v : BitVec 64) (s : State) :
    writeOperand n v s =
      if n = 0x00#8 then { s with opType := v.extractLsb' 0 8 }
      else if n = 0x01#8 then { s with opStream := v.extractLsb' 0 16 }
      else if n = 0x02#8 then { s with opSeq := v }
      else if n = 0x03#8 then { s with opFlags := v.extractLsb' 0 8 }
      else s := by
  have h8 : v.setWidth 8 = v.extractLsb' 0 8 := BitVec.setWidth_eq_extractLsb' (by decide)
  have h16 : v.setWidth 16 = v.extractLsb' 0 16 := BitVec.setWidth_eq_extractLsb' (by decide)
  unfold writeOperand
  rw [h8, h16]
  by_cases hn0 : n = 0x00#8
  · simp [hn0]
  by_cases hn1 : n = 0x01#8
  · simp [hn1]
  by_cases hn2 : n = 0x02#8
  · simp [hn2]
  by_cases hn3 : n = 0x03#8
  · simp [hn3]
  simp [hn0, hn1, hn2, hn3]

end Sys2Proof.Machine

/-!
# The obligations of 10_state.md
-/

namespace Sys2Proof.Proofs

open Machine

/-- Settles O8, by the event that the step takes. -/
theorem everyStepKeepsTheInvariant : Obligations.EveryStepKeepsTheInvariant := by
  intro s t h hstep
  cases step_effect hstep with
  | wait hf => exact h
  | command v rest hf hb ht => exact ht.keeps_inv (inv_setPending h rest) hb
  | receive b rest hf hb hl ht => exact ht.keeps_inv (inv_setPending h rest) hl
  | reset rest hf => exact inv_resetCore _ _
  | plain e rest hf he ht => exact outside_keeps_inv ht he (inv_setPending h rest)

/-- Settles O41, by the event that the step takes. -/
theorem fsmMovesOnlyAsTheTableSays : Obligations.FsmMovesOnlyAsTheTableSays := by
  intro s t hstep
  cases step_effect hstep with
  | wait hf => simp [hf]
  | command v rest hf hb ht =>
    obtain ⟨hconnect, hkeepalive, hother⟩ := ht.fsm_wait hb
    simp only [hf]
    split_ifs with h1 h2
    · exact hconnect h1.2
    · exact hkeepalive h2.2
    · exact hother (fun h => h1 ⟨trivial, h⟩) (fun h => h2 ⟨trivial, h⟩)
  | receive b rest hf hb hl ht =>
    simp only [hf]
    split
    next hs => exact ht.fsm_of_helloSent hs
    next hs => exact ⟨((busy_iff s).1 hb).resolve_left hs, ht.fsm_of_keepalive hs⟩
  | reset rest hf => simp [hf, State.reset]
  | plain e rest hf he ht =>
    obtain ⟨hfsm, hka, _⟩ := outside_keeps_session ht he
    cases he with
    | write n v hn => simpa [hf, hn] using ⟨hfsm, hka⟩
    | readReg | load | readObuf | readSid | ports => simpa [hf] using ⟨hfsm, hka⟩

/-- Settles O44, by the event that the step takes. -/
theorem crcResultWrittenOnlyByCrc16 : Obligations.CrcResultWrittenOnlyByCrc16 := by
  intro s t hstep
  cases step_effect hstep with
  | wait hf => simp [hf]
  | command v rest hf hb ht => simpa [hf] using ht.crcResult
  | receive b rest hf hb hl ht => simpa [hf] using ht.crcResult
  | reset rest hf => simp [hf, State.reset]
  | plain e rest hf he ht =>
    obtain ⟨_, _, hcrc, _⟩ := outside_keeps_results ht he
    cases he with
    | write n v hn => simpa [hf, hn] using hcrc
    | readReg | load | readObuf | readSid | ports => simpa [hf] using hcrc

/-- Settles O45, by the event that the step takes. -/
theorem resultRegistersWrittenOnlyByDecodes : Obligations.ResultRegistersWrittenOnlyByDecodes := by
  intro s t hstep
  cases step_effect hstep with
  | wait hf => simp [hf]
  | command v rest hf hb ht =>
    by_cases hc : v.setWidth 8 = 0x03#8
    · cases hd : decodeFrame Config.params s.ibuf with
      | ok pk => simpa [hf, hc, hd, Holds] using ht.holds_of_decode hc hd
      | err e => simpa [hf, hc, hd, ResultsKept] using ht.keeps_results (by simp [hd])
    · simpa [hf, hc, ResultsKept] using ht.keeps_results fun h => absurd h hc
  | receive b rest hf hb hl ht =>
    cases hd : decodeFrame Config.params b with
    | ok pk => simpa [hf, hd, Holds] using ht.holds_of_decode hd
    | err e => simpa [hf, hd, ResultsKept] using ht.keeps_results (by simp [hd])
  | reset rest hf => simp [hf, State.reset]
  | plain e rest hf he ht =>
    obtain ⟨_, _, _, hkept⟩ := outside_keeps_results ht he
    cases he with
    | write n v hn => simpa [hf, hn, ResultsKept] using hkept
    | readReg | load | readObuf | readSid | ports => simpa [hf, ResultsKept] using hkept

/-- Settles O47: the event is a command or a receive event, and each has its outcome. -/
theorem completionLeavesAnOutcome : Obligations.CompletionLeavesAnOutcome := by
  intro s s' t e hf hstep he hb
  cases step_effect hstep with
  | command v rest hf' hb' ht => exact ht.completed hb
  | receive b rest hf' hb' hl ht => exact ht.completed
  | wait hf' => simp [hf] at hf'
  | reset rest hf' =>
    obtain ⟨rfl, _⟩ : e = .rst ∧ _ := by simpa [hf] using hf'
    simp at he
  | plain e' rest hf' he' ht =>
    obtain ⟨rfl, _⟩ : e = e' ∧ _ := by simpa [hf] using hf'
    obtain ⟨v, rfl⟩ | ⟨b, rfl⟩ := he
    · cases he' with | write n v hn => exact absurd rfl hn
    · cases he'

/-- Settles O29: a write to another register than CMD may always happen. -/
theorem operandWriteTruncates : Obligations.OperandWriteTruncates := by
  intro s n v rest hn hp
  rw [step_outside_head hp (by simp [Event.enabled, cmdReg, hn]) (by simp [Event.carried, cmdReg, hn])]
  simp only [outside, writeOperand_eq, setPending]

/-- Settles O30. -/
theorem loadIbufReplacesTheWhole : Obligations.LoadIbufReplacesTheWhole := by
  intro s b rest hp
  rw [step_outside_head hp rfl rfl, outside, loadIbuf]
  exact ⟨fun hl => if_neg (by omega), fun hl => if_pos hl⟩

/-- Settles O32. -/
theorem registerMapReads : Obligations.RegisterMapReads := fun s =>
  ⟨rfl, rfl, rfl, rfl, toNat_statusWord s, rfl, rfl, rfl, rfl, rfl, rfl, rfl, rfl, rfl, rfl, rfl,
    fun _ => readReg_unknown s⟩

/-- Settles O33. -/
theorem inputPortsTakeAnyValue : Obligations.InputPortsTakeAnyValue := by
  intro s clk nonce rest hp
  rw [step_outside_head hp rfl rfl]
  rfl

/-- Settles O5: a fixed state. -/
theorem resetStateHoldsTheSpecsValues : Obligations.ResetStateHoldsTheSpecsValues := by
  unfold Obligations.ResetStateHoldsTheSpecsValues
  decide

/-- Settles O7. -/
theorem invariantHoldsAtReset : Obligations.InvariantHoldsAtReset := inv_reset _

end Sys2Proof.Proofs

/-!
# The choice of the event

What `pick` takes is the first event that can happen: nothing before it can, and it can behind them.
-/

namespace Sys2Proof.Machine

/-- Not busy, the events that cannot happen are the receive events (44_interfaces.md R139). -/
theorem not_enabled_idle_iff (e : Event) : e.enabled false false = false ↔ ∃ b, e = .rx b := by
  cases e with
  | host op => cases op <;> simp [Event.enabled]
  | rx | rst | ports => simp [Event.enabled]

/-- Busy, with no host operation waiting, the events that cannot happen are the writes to CMD
(44_interfaces.md R132). -/
theorem not_enabled_busy_iff (e : Event) : e.enabled true false = false ↔ ∃ v, e = .host (.writeReg 0x08#8 v) := by
  cases e with
  | host op => cases op <;> simp [Event.enabled, cmdReg]
  | rx | rst | ports => simp [Event.enabled]

/-- Behind a waiting host operation no other operation of the host can happen (log 2). -/
theorem not_ofHost_of_enabled_held {busy : Bool} {e : Event} (h : e.enabled busy true = true) : e.ofHost = false := by
  cases e with
  | host op => cases op <;> simp [Event.enabled] at h
  | rx | rst | ports => rfl

/-- Not busy, nothing can happen exactly where only receive events are pending. -/
theorem pick_none_idle (es : List Event) : pick false false es = none ↔ ∀ e ∈ es, ∃ b, e = .rx b := by
  induction es with
  | nil => simp [pick]
  | cons x xs ih =>
    rw [pick_none_cons, not_enabled_idle_iff, List.forall_mem_cons]
    refine and_congr_right ?_
    rintro ⟨b, rfl⟩
    exact ih

/-- Busy, nothing can happen exactly where a write to CMD holds the host and only the host would act behind it. -/
theorem pick_none_busy (es : List Event) :
    pick true false es = none ↔
      es = [] ∨ ∃ v rest, es = .host (.writeReg 0x08#8 v) :: rest ∧ ∀ e ∈ rest, e.ofHost = true := by
  cases es with
  | nil => simp [pick]
  | cons x xs =>
    rw [pick_none_cons, not_enabled_busy_iff]
    constructor
    · rintro ⟨⟨v, rfl⟩, h⟩
      exact .inr ⟨v, xs, rfl, (pick_none_held xs).1 h⟩
    · rintro (h | ⟨v, rest, h, hrest⟩)
      · cases h
      · cases h
        exact ⟨⟨v, rfl⟩, (pick_none_held xs).2 hrest⟩

/-- The picked event stands behind events of which none can happen, and it can happen behind them. -/
theorem pick_some_split {busy held : Bool} {l r : List Event} {e : Event} (h : pick busy held l = some (e, r)) :
    ∃ before after, l = before ++ e :: after ∧ r = before ++ after ∧ pick busy held before = none
      ∧ e.enabled busy (held || before.any Event.ofHost) = true := by
  induction l generalizing held r with
  | nil => cases h
  | cons x xs ih =>
    rw [pick] at h
    split at h
    next hx =>
      cases h
      exact ⟨[], xs, rfl, rfl, rfl, by simpa using hx⟩
    next hx =>
      split at h
      next => cases h
      next e' rest hp =>
        cases h
        obtain ⟨before, after, rfl, rfl, hnone, he⟩ := ih hp
        exact ⟨x :: before, after, rfl, rfl, pick_none_cons.2 ⟨by simpa using hx, hnone⟩,
          by simpa [Bool.or_assoc] using he⟩

theorem fetch_none_iff (s : State) : s.fetch = none ↔ pick s.busy false s.pending = none := by
  unfold State.fetch
  split <;> simp_all

/-- The pending events around the one that is taken. -/
theorem fetch_some_split {s s' : State} {e : Event} (h : s.fetch = some (e, s')) :
    ∃ before after, s.pending = before ++ e :: after ∧ s' = setPending (before ++ after) s
      ∧ pick s.busy false before = none ∧ e.enabled s.busy (before.any Event.ofHost) = true := by
  unfold State.fetch at h
  split at h
  next => cases h
  next hp =>
    cases h
    obtain ⟨before, after, hl, rfl, hnone, he⟩ := pick_some_split hp
    exact ⟨before, after, hl, rfl, hnone, by simpa using he⟩

/-- What a step does is determined by what it fetches. -/
theorem step_eq_of_fetch_eq {s t : State} {r : Event × State} (hs : s.fetch = some r) (ht : t.fetch = some r) :
    step s = step t := by
  simp only [step, hs, ht]

/-- The taken event is taken from the head as well. -/
theorem fetch_moved_to_head {s s' : State} {e : Event} (h : s.fetch = some (e, s')) :
    ({ s with pending := e :: s'.pending } : State).fetch = some (e, s') := by
  obtain ⟨rest, held, he, rfl⟩ := fetch_spec h
  exact fetch_head rfl (enabled_unheld he)

theorem step_of_fetch_none {s : State} (h : s.fetch = none) : step s = .next s := by
  simp only [step, h]

end Sys2Proof.Machine

/-!
# The obligations of 20_memory.md
-/

namespace Sys2Proof.Proofs

open Machine

/-- Settles O10: nothing can happen before the taken event (`fetch_some_split`), and `pick_none_idle` and
`pick_none_busy` say which events those are. -/
theorem stepTakesTheFirstEnabledEvent : Obligations.StepTakesTheFirstEnabledEvent := by
  refine ⟨fun s s' e hf => ⟨?_, step_eq_of_fetch_eq hf (fetch_moved_to_head hf)⟩,
    fun s => ⟨?_, step_of_fetch_none⟩⟩
  · obtain ⟨before, after, hpending, rfl, hnone, he⟩ := fetch_some_split hf
    refine ⟨before, after, hpending, rfl, fun hb => ?_, fun hb => ?_⟩ <;> rw [hb] at hnone he
    · have hnotRx : ¬ ∃ b, e = .rx b := by simp [← not_enabled_idle_iff, enabled_unheld he]
      exact ⟨not_exists.1 hnotRx, (pick_none_idle before).1 hnone⟩
    · have hnotCmd : ¬ ∃ v, e = .host (.writeReg 0x08#8 v) := by simp [← not_enabled_busy_iff, enabled_unheld he]
      refine ⟨not_exists.1 hnotCmd, ?_⟩
      obtain rfl | ⟨v, held, rfl, hheld⟩ := (pick_none_busy before).1 hnone
      · simp
      · have hbehind : e.ofHost = false := not_ofHost_of_enabled_held (by simpa [Event.ofHost] using he)
        refine ⟨List.forall_mem_cons.2 ⟨rfl, hheld⟩, fun x rest h => ?_⟩
        cases h
        exact ⟨⟨v, rfl⟩, hbehind⟩
  · rw [fetch_none_iff]
    split
    next hb => rw [hb, pick_none_busy]
    next hb => rw [Bool.not_eq_true] at hb; rw [hb, pick_none_idle]

/-- Settles O31: a read carries no instruction and may happen in every state. -/
theorem readsHaveNoSideEffect : Obligations.ReadsHaveNoSideEffect := fun _ _ =>
  ⟨fun _ hp => step_outside_head hp rfl rfl, fun hp => step_outside_head hp rfl rfl,
    fun hp => step_outside_head hp rfl rfl⟩

end Sys2Proof.Proofs

/-!
# The rows by their code and type

The commands are `decodeCommand c`, one for each byte, and the frames are `frameRow ty h pl`, one for each type byte,
header and payload (30_encoding.md R60, R61; R55, R56). `encode`, `Instr.wf` and `decode` are said of these two forms,
and every well-formed instruction and every decoded one has one of them.
-/

namespace Sys2Proof

open Machine

/-- A command code is reserved or has a row of its own (30_encoding.md R60, R61). -/
theorem reserved_or_named_command (c : Byte) :
    c ∉ namedCommands ∨ c = 0x01#8 ∨ c = 0x02#8 ∨ c = 0x03#8 ∨ c = 0x10#8 ∨ c = 0x11#8 ∨ c = 0x12#8 :=
  (em' (c ∈ namedCommands)).imp_right fun h => by simpa [namedCommands] using h

/-- A packet type is reserved or has a name (30_encoding.md R55, R56). -/
theorem reserved_or_named_type (ty : Byte) :
    ty ∉ namedTypes ∨ ty = 0x01#8 ∨ ty = 0x03#8 ∨ ty = 0x04#8 ∨ ty = 0x05#8 ∨ ty = 0x06#8 :=
  (em' (ty ∈ namedTypes)).imp_right fun h => by simpa [namedTypes] using h

theorem decodeCommand_of_reserved {c : Byte} (h : c ∉ namedCommands) : decodeCommand c = .reservedCmd c := by
  simp only [namedCommands, List.mem_cons, List.not_mem_nil, or_false, not_or] at h
  simp [decodeCommand, h]

theorem frameRow_of_reserved {ty : Byte} (h : ty ∉ namedTypes) (hd : Header) (pl : Bytes) :
    frameRow ty hd pl = .reservedTypePkt ty hd pl := by
  simp only [namedTypes, List.mem_cons, List.not_mem_nil, or_false, not_or] at h
  simp [frameRow, h]

@[simp] theorem encode_decodeCommand (c : Byte) : encode (decodeCommand c) = (.cmd, [c]) := by
  rcases reserved_or_named_command c with h | rfl | rfl | rfl | rfl | rfl | rfl
  · rw [decodeCommand_of_reserved h]; rfl
  all_goals rfl

@[simp] theorem encode_frameRow (ty : Byte) (hd : Header) (pl : Bytes) :
    encode (frameRow ty hd pl) = (.rx, wire ty hd pl) := by
  rcases reserved_or_named_type ty with h | rfl | rfl | rfl | rfl | rfl
  · rw [frameRow_of_reserved h]; rfl
  all_goals rfl

@[simp] theorem wf_decodeCommand (p : Params) (c : Byte) : (decodeCommand c).wf p = true := by
  rcases reserved_or_named_command c with h | rfl | rfl | rfl | rfl | rfl | rfl
  · rw [decodeCommand_of_reserved h]; simpa [Instr.wf] using h
  all_goals rfl

/-- Of a frame, well-formedness asks the payload's length alone. -/
@[simp] theorem wf_frameRow (p : Params) (ty : Byte) (hd : Header) (pl : Bytes) :
    (frameRow ty hd pl).wf p = payloadFits p pl := by
  rcases reserved_or_named_type ty with h | rfl | rfl | rfl | rfl | rfl
  · rw [frameRow_of_reserved h]; simp [Instr.wf, h]
  all_goals rfl

/-- A well-formed instruction is the row of its code, or of its type: no reserved row holds a named code. -/
theorem command_or_frame_of_wf {p : Params} {i : Instr} (h : i.wf p = true) :
    (∃ c, i = decodeCommand c) ∨ ∃ ty hd pl, i = frameRow ty hd pl := by
  cases i with
  | crc16 => exact .inl ⟨0x01#8, rfl⟩
  | encode => exact .inl ⟨0x02#8, rfl⟩
  | decode => exact .inl ⟨0x03#8, rfl⟩
  | connect => exact .inl ⟨0x10#8, rfl⟩
  | keepalive => exact .inl ⟨0x11#8, rfl⟩
  | disconnect => exact .inl ⟨0x12#8, rfl⟩
  | reservedCmd c =>
    have hc : c ∉ namedCommands := by simpa [Instr.wf] using h
    exact .inl ⟨c, (decodeCommand_of_reserved hc).symm⟩
  | dataPkt hd pl => exact .inr ⟨0x01#8, hd, pl, rfl⟩
  | handshakeInitPkt hd pl => exact .inr ⟨0x03#8, hd, pl, rfl⟩
  | handshakeResponsePkt hd pl => exact .inr ⟨0x04#8, hd, pl, rfl⟩
  | keepalivePkt hd pl => exact .inr ⟨0x05#8, hd, pl, rfl⟩
  | disconnectPkt hd pl => exact .inr ⟨0x06#8, hd, pl, rfl⟩
  | reservedTypePkt ty hd pl =>
    have hty : ty ∉ namedTypes := by simpa using (Bool.and_eq_true_iff.1 h).left
    exact .inr ⟨ty, hd, pl, (frameRow_of_reserved hty hd pl).symm⟩

@[simp] theorem decode_cmd (c : Byte) : decode .cmd [c] = .ok (decodeCommand c) := rfl

theorem decode_wire (ty : Byte) (hd : Header) (pl : Bytes) :
    decode .rx (wire ty hd pl) = .ok (frameRow ty hd pl) := by
  have hlong : ¬ (wire ty hd pl).length < headerLen := by simp [headerLen]
  simp only [decode, decodeRead, if_neg hlong, type_of_wire, header_read_wire, payload_of_wire]

/-- What decodes is one byte at the command port, or the wire form of a frame at the receive port. -/
theorem command_or_wire_of_decode {port : Port} {bs : Bytes} {i : Instr} (h : decode port bs = .ok i) :
    (∃ c, port = .cmd ∧ bs = [c] ∧ i = decodeCommand c)
    ∨ ∃ ty hd pl, port = .rx ∧ bs = wire ty hd pl ∧ i = frameRow ty hd pl := by
  cases port with
  | cmd =>
    match bs, h with
    | [c], h => cases h; exact .inl ⟨c, rfl, rfl, rfl⟩
  | rx =>
    by_cases hlen : headerLen ≤ bs.length
    · have hbs := wire_of_read bs hlen
      rw [← hbs, decode_wire] at h
      cases h
      exact .inr ⟨_, _, _, rfl, hbs.symm, rfl⟩
    · simp [decode, decodeRead, not_le.1 hlen] at h

/-- A frame fits the buffers just where its payload does (00_scope.md R5: MAX_FRAME is MAX_PAYLOAD and the header). -/
theorem wire_length_le_maxFrame_iff (p : Params) (ty : Byte) (hd : Header) (pl : Bytes) :
    (wire ty hd pl).length ≤ p.maxFrame ↔ payloadFits p pl = true := by
  simp [Params.maxFrame, headerLen, payloadFits]

end Sys2Proof

/-!
# The obligations of 30_encoding.md
-/

namespace Sys2Proof.Proofs

open Machine

/-- Settles O3, by the two forms of a well-formed instruction. -/
theorem decodeOfEncodeIsTheInstruction : Obligations.DecodeOfEncodeIsTheInstruction := by
  intro i hwf
  obtain ⟨c, rfl⟩ | ⟨ty, hd, pl, rfl⟩ := command_or_frame_of_wf hwf
  · rw [encode_decodeCommand, decode_cmd]
  · rw [encode_frameRow, decode_wire]

/-- Settles O4, by the two forms of what decodes. -/
theorem encodeOfDecodeIsTheBytes : Obligations.EncodeOfDecodeIsTheBytes := by
  intro port bs i h
  obtain ⟨c, rfl, rfl, rfl⟩ | ⟨ty, hd, pl, rfl, rfl, rfl⟩ := command_or_wire_of_decode h
  · exact ⟨encode_decodeCommand c, fun _ => wf_decodeCommand _ c⟩
  · refine ⟨encode_frameRow ty hd pl, fun hfit => ?_⟩
    exact (wf_frameRow _ ty hd pl).trans ((wire_length_le_maxFrame_iff _ ty hd pl).1 hfit)

/-- Settles O1: the six codes by evaluation, the rest by `decodeCommand_of_reserved`. -/
theorem commandCodesDecode : Obligations.CommandCodesDecode :=
  ⟨rfl, rfl, rfl, rfl, rfl, rfl, fun _ hc => congrArg Except.ok (decodeCommand_of_reserved hc)⟩

/-- Settles O2, by evaluation of the decoder. -/
theorem frameWordsDecode : Obligations.FrameWordsDecode := ⟨rfl, rfl, rfl, rfl, rfl, rfl⟩

end Sys2Proof.Proofs

/-!
# The checksum and bursts

The difference of two bit sequences decides whether their checksums agree (`crc16_eq_iff`). A difference whose ones lie
within 16 consecutive positions is zeros, then a one with at most 15 bits behind it, then zeros: the zeros before leave
the register at 0, the one and the bits behind it take it away from 0, and the zeros after cannot take it back.
-/

namespace Sys2Proof.Machine

/-- The checksum of the empty sequence is the register's start (40_crc.md R70). -/
@[simp] theorem crc16_nil : crc16 [] = 0xFFFF#16 := rfl

theorem byteBits_injective : Function.Injective byteBits := by
  intro a b h
  apply BitVec.eq_of_getLsbD_eq
  intro j hj
  have hbit : (byteBits a)[7 - j]? = (byteBits b)[7 - j]? := by rw [h]
  simpa [byteBits, show 7 - j < 8 by omega, show 7 - (7 - j) = j by omega] using hbit

theorem bitsOf_cons (b : Byte) (bs : Bytes) : bitsOf (b :: bs) = byteBits b ++ bitsOf bs := rfl

theorem bitsOf_injective : Function.Injective bitsOf := by
  intro as
  induction as with
  | nil =>
    intro bs h
    have hlen : (bitsOf []).length = (bitsOf bs).length := by rw [h]
    exact (List.length_eq_zero_iff.1 (by simpa using hlen.symm)).symm
  | cons a as ih =>
    intro bs h
    cases bs with
    | nil => simpa using congrArg List.length h
    | cons b bs =>
      rw [bitsOf_cons, bitsOf_cons] at h
      obtain ⟨hhead, htail⟩ := List.append_inj h (by simp)
      rw [byteBits_injective hhead, ih htail]

/-- Two different bit sequences of one length have a position where they differ. -/
theorem true_mem_zipWith_xor {xs ys : List Bool} (hlen : xs.length = ys.length) (hne : xs ≠ ys) :
    true ∈ List.zipWith xor xs ys := by
  contrapose! hne
  apply List.ext_getElem hlen
  intro i hx hy
  have hi : (List.zipWith xor xs ys)[i]'(by simp [hx, hy]) ≠ true := fun h => hne (h ▸ List.getElem_mem _)
  simpa using hi

/-- A one with at most 15 bits behind it and only zeros after them leaves no zero register. -/
theorem crcSerial_one_ne_zero {d : List Bool} (hzeros : ∀ b ∈ d.drop 15, b = false) :
    crcSerial 0#16 (true :: d) ≠ 0#16 := by
  have hd : true :: d = (true :: d.take 15) ++ List.replicate (d.drop 15).length false := by
    rw [← List.eq_replicate_of_mem hzeros, List.cons_append, List.take_append_drop]
  rw [hd, crcSerial_append]
  intro h
  exact crcSerial_burst (d.take 15) (by simp) (crcSerial_replicate_eq_zero h)

/-- A difference with its ones, of which there is one, within 16 consecutive positions leaves no zero register. -/
theorem crcSerial_window_ne_zero {d : List Bool} {n : Nat} (hone : true ∈ d)
    (hwindow : ∀ k, d[k]? = some true → n ≤ k ∧ k < n + 16) : crcSerial 0#16 d ≠ 0#16 := by
  induction d generalizing n with
  | nil => simp at hone
  | cons b d ih =>
    cases b with
    | false =>
      have hstep : crcSerial 0#16 (false :: d) = crcSerial 0#16 d := by simp [crcSerial]
      rw [hstep]
      refine ih (n := n - 1) (by simpa using hone) fun k hk => ?_
      have := hwindow (k + 1) (by simpa using hk)
      omega
    | true =>
      have hn : n = 0 := by simpa using (hwindow 0 rfl).1
      refine crcSerial_one_ne_zero fun b hb => ?_
      obtain ⟨k, hk⟩ := List.mem_iff_getElem?.1 hb
      rw [List.getElem?_drop] at hk
      cases b with
      | false => rfl
      | true =>
        have := hwindow (15 + k + 1) (by simpa using hk)
        omega

/-- Where the difference of two sequences has a one, its position lies in both and their bits there differ. -/
theorem bit_ne_of_zipWith_xor {a b : Bytes} {k : Nat} (hlen : a.length = b.length)
    (h : (List.zipWith xor (bitsOf a) (bitsOf b))[k]? = some true) :
    k < 8 * a.length
    ∧ (a.getD (k / 8) 0#8).getLsbD (7 - k % 8) ≠ (b.getD (k / 8) 0#8).getLsbD (7 - k % 8) := by
  obtain ⟨x, y, hx, hy, hxy⟩ := List.getElem?_zipWith_eq_some.1 h
  have hk : k < 8 * a.length := by simpa using (List.getElem?_eq_some_iff.1 hx).1
  refine ⟨hk, ?_⟩
  rw [← bitsOf_getD a k hk, ← bitsOf_getD b k (hlen ▸ hk), List.getD_eq_getElem?_getD, List.getD_eq_getElem?_getD,
    hx, hy]
  simpa using hxy

/-- What CRC16 does in a state that is not busy (40_crc.md R76). -/
theorem exec_crc16_idle {s : State} (hb : s.busy = false) :
    exec .crc16 s = .next { s with crcResult := crc16 s.ibuf, ok := true, err := 0#8 } :=
  issue_idle crcRule s hb

end Sys2Proof.Machine

/-!
# The obligations of 40_crc.md
-/

namespace Sys2Proof.Proofs

open Machine

/-- Settles O12. -/
theorem crc16WritesTheChecksumOfIbuf : Obligations.Crc16WritesTheChecksumOfIbuf := by
  intro s hb
  refine ⟨exec_crc16_idle hb, fun hempty => ?_⟩
  have hcrc : crc16 s.ibuf = 0xFFFF#16 := by rw [hempty, crc16_nil]
  rw [exec_crc16_idle hb, hcrc]

/-- Settles O36: the difference of the two sequences is a burst. -/
theorem checksumDetectsBursts : Obligations.ChecksumDetectsBursts := by
  intro a b n hlen hne hburst
  rw [Ne, crc16_eq_iff a b hlen]
  have hone := true_mem_zipWith_xor (by simp [hlen]) (bitsOf_injective.ne hne)
  refine crcSerial_window_ne_zero (n := n) hone fun k hk => ?_
  obtain ⟨hin, hbit⟩ := bit_ne_of_zipWith_xor hlen hk
  exact hburst k hin hbit

/-- Settles O34, by evaluation. -/
theorem checksumVectors : Obligations.ChecksumVectors := by
  unfold Obligations.ChecksumVectors
  decide +kernel

/-- Settles O35. -/
theorem checksumOfAConcatenation : Obligations.ChecksumOfAConcatenation :=
  fun _ _ => List.foldl_append

end Sys2Proof.Proofs

/-!
# The codec: decode by its checks, frames as wire forms, one changed byte

`decode` answers each of its four results under exactly one condition on the bytes (`decodeFrame_*_iff`). A frame is the
wire form of a header that holds the right checksum (`frame_eq_wire`). Changing one byte of a sequence changes the field
that holds it and no other, and changes the checksum if the byte is in its domain.
-/

namespace Sys2Proof.Machine

/-! ## A two-byte field -/

/-- The number of a two-byte field, from its bytes (00_scope.md R8). -/
theorem toNat_u16be (f : Bytes) (o : Nat) : (u16be f o).toNat = (u8 f o).toNat * 256 + (u8 f (o + 1)).toNat := by
  rw [u16be, BitVec.toNat_append, ← Nat.shiftLeft_add_eq_or_of_lt (u8 f (o + 1)).isLt, Nat.shiftLeft_eq]

theorem u8_set_self {f : Bytes} {i : Nat} (hi : i < f.length) (v : Byte) : u8 (f.set i v) i = v := by
  simp [u8, hi]

theorem u8_set_of_ne (f : Bytes) {i j : Nat} (h : i ≠ j) (v : Byte) : u8 (f.set i v) j = u8 f j := by
  simp [u8, List.getElem?_set_ne h]

theorem u16be_eq_iff (f g : Bytes) (o : Nat) :
    u16be f o = u16be g o ↔ u8 f o = u8 g o ∧ u8 f (o + 1) = u8 g (o + 1) := by
  refine ⟨fun h => ?_, fun ⟨hhigh, hlow⟩ => by rw [u16be, hhigh, hlow]; rfl⟩
  have hbytes := congrArg be16 h
  rw [u16be, u16be, be16_append, be16_append] at hbytes
  simpa using hbytes

/-- A changed byte within a two-byte field changes the field. -/
theorem u16be_set_ne {f : Bytes} {i o : Nat} {v : Byte} (hi : i < f.length) (hv : u8 f i ≠ v)
    (ho : i = o ∨ i = o + 1) : u16be (f.set i v) o ≠ u16be f o := by
  rw [Ne, u16be_eq_iff]
  rintro ⟨hhigh, hlow⟩
  rcases ho with rfl | rfl
  · exact hv (hhigh ▸ u8_set_self hi v)
  · exact hv (hlow ▸ u8_set_self hi v)

/-- A changed byte outside a two-byte field leaves the field. -/
theorem u16be_set_of_ne (f : Bytes) {i o : Nat} (v : Byte) (h0 : i ≠ o) (h1 : i ≠ o + 1) :
    u16be (f.set i v) o = u16be f o :=
  (u16be_eq_iff _ _ _).2 ⟨u8_set_of_ne f h0 v, u8_set_of_ne f h1 v⟩

/-! ## The four results of `decode` -/

theorem decodeFrame_tooShort_iff (p : Params) (f : Bytes) :
    decodeFrame p f = .err .tooShort ↔ f.length < headerLen := by
  rcases decodeFrame_cases p f with ⟨hl, hd⟩ | ⟨hl, _, hd⟩ | ⟨hl, _, _, hd⟩ | ⟨hl, _, _, hd⟩ <;> simp [hd, hl]

theorem decodeFrame_badMagic_iff (p : Params) (f : Bytes) :
    decodeFrame p f = .err .badMagic ↔ headerLen ≤ f.length ∧ u16be f 0 ≠ p.protocolId := by
  rcases decodeFrame_cases p f with ⟨hl, hd⟩ | ⟨hl, hm, hd⟩ | ⟨hl, hm, _, hd⟩ | ⟨hl, hm, _, hd⟩
  · simp [hd, hl]
  all_goals simp [hd, hl, hm]

theorem decodeFrame_checksumMismatch_iff (p : Params) (f : Bytes) :
    decodeFrame p f = .err .checksumMismatch ↔
      headerLen ≤ f.length ∧ u16be f 0 = p.protocolId ∧ crc16 (checksumDomain f) ≠ u16be f 22 := by
  rcases decodeFrame_cases p f with ⟨hl, hd⟩ | ⟨hl, hm, hd⟩ | ⟨hl, hm, hc, hd⟩ | ⟨hl, hm, hc, hd⟩
  · simp [hd, hl]
  · simp [hd, hm]
  all_goals simp [hd, hl, hm, hc]

theorem decodeFrame_ok_iff (p : Params) (f : Bytes) (pk : Packet) :
    decodeFrame p f = .ok pk ↔
      headerLen ≤ f.length ∧ u16be f 0 = p.protocolId ∧ crc16 (checksumDomain f) = u16be f 22 ∧ readPacket f = pk := by
  rcases decodeFrame_cases p f with ⟨hl, hd⟩ | ⟨hl, hm, hd⟩ | ⟨hl, hm, hc, hd⟩ | ⟨hl, hm, hc, hd⟩
  · simp [hd, hl]
  · simp [hd, hm]
  all_goals simp [hd, hl, hm, hc]

/-- The errors of `decode` and their numbers (60_exceptions.md R150 to R153). -/
theorem decodeFrame_err {p : Params} {f : Bytes} {e : ErrorCode} (h : decodeFrame p f = .err e) :
    (e = .tooShort ∧ e.code = 1#8) ∨ (e = .badMagic ∧ e.code = 2#8) ∨ (e = .checksumMismatch ∧ e.code = 3#8) := by
  rcases decodeFrame_cases p f with ⟨_, hd⟩ | ⟨_, _, hd⟩ | ⟨_, _, _, hd⟩ | ⟨_, _, _, hd⟩
  · obtain rfl : .tooShort = e := Decoded.err.inj (hd.symm.trans h)
    exact .inl ⟨rfl, rfl⟩
  · obtain rfl : .badMagic = e := Decoded.err.inj (hd.symm.trans h)
    exact .inr (.inl ⟨rfl, rfl⟩)
  · obtain rfl : .checksumMismatch = e := Decoded.err.inj (hd.symm.trans h)
    exact .inr (.inr ⟨rfl, rfl⟩)
  · exact absurd (hd.symm.trans h) nofun

/-! ## Frames -/

/-- A frame is the wire form of a header that holds its checksum (30_encoding.md R50, R52). -/
theorem frame_eq_wire (pid : BitVec 16) (ty : Byte) (sid : BitVec 16) (seq ts : BitVec 64) (fl : Byte) (pl : Bytes) :
    frame pid ty sid seq ts fl pl = wire ty ⟨pid, sid, seq, ts, fl, csum pid ty sid seq ts fl pl⟩ pl := by
  simp [frame, wire, hdr22, Header.write]

/-- Bytes that are long enough for a header are the wire form of some frame. -/
theorem exists_eq_wire {f : Bytes} (hf : headerLen ≤ f.length) : ∃ ty hd pl, f = wire ty hd pl :=
  ⟨_, _, _, (wire_of_read f hf).symm⟩

/-- What decodes is the frame of its fields (41_codec.md R96). -/
theorem eq_frame_of_decodeFrame_ok {p : Params} {f : Bytes} {pk : Packet} (h : decodeFrame p f = .ok pk) :
    f = frame p.protocolId pk.packetType pk.streamId pk.sequenceNumber pk.timestamp pk.flags pk.payload := by
  obtain ⟨ty, hd, pl, rfl⟩ := exists_eq_wire (payload_of_decoded h).1
  rw [decodeFrame_wire] at h
  split_ifs at h with hmagic hsum
  rw [not_not] at hmagic hsum
  cases h
  rw [frame_eq_wire, ← hmagic, hsum]

/-! ## One changed byte -/

/-- One changed byte changes the checksum: it is a burst of at most 8 positions (40_crc.md R77). -/
theorem crc16_set_ne {a : Bytes} {j : Nat} {v : Byte} (hj : j < a.length) (hv : u8 a j ≠ v) :
    crc16 (a.set j v) ≠ crc16 a := by
  have hne : a.set j v ≠ a := fun h => hv (h ▸ u8_set_self hj v)
  refine Proofs.checksumDetectsBursts _ _ (8 * j) (by simp) hne fun k _ hbit => ?_
  have hbyte : k / 8 = j := by
    by_contra h
    exact hbit (congrArg (·.getLsbD (7 - k % 8)) (u8_set_of_ne a (Ne.symm h) v))
  omega

/-- The stored checksum is not in the checksum domain (41_codec.md R90). -/
theorem checksumDomain_set_stored (f : Bytes) {i : Nat} (v : Byte) (hi : i = 22 ∨ i = 23) :
    checksumDomain (f.set i v) = checksumDomain f := by
  rw [checksumDomain, List.take_set_of_le (by omega), List.drop_set_of_lt (by simp [headerLen]; omega)]
  rfl

/-- A changed byte outside the stored checksum is a changed byte of the checksum domain. -/
theorem checksumDomain_set_of_ne {f : Bytes} {i : Nat} {v : Byte} (hi : i < f.length) (h22 : i ≠ 22) (h23 : i ≠ 23)
    (hv : u8 f i ≠ v) :
    ∃ j, j < (checksumDomain f).length ∧ u8 (checksumDomain f) j ≠ v
      ∧ checksumDomain (f.set i v) = (checksumDomain f).set j v := by
  rcases Nat.lt_or_ge i 22 with hlow | hhigh
  · have hpos : i < (f.take 22).length := by simp; omega
    refine ⟨i, ?_, ?_, ?_⟩
    · simp [checksumDomain]; omega
    · simpa [checksumDomain, u8, List.getElem?_append_left hpos, hlow] using hv
    · rw [checksumDomain, List.take_set, List.drop_set_of_lt (by simp [headerLen]; omega),
        ← List.set_append_left _ _ hpos, ← checksumDomain]
  · obtain ⟨k, rfl⟩ := Nat.exists_eq_add_of_le (show 24 ≤ i by omega)
    have hpos : (f.take 22).length = 22 := by simp; omega
    refine ⟨22 + k, ?_, ?_, ?_⟩
    · simp [checksumDomain, headerLen]; omega
    · simpa [checksumDomain, u8, headerLen, List.getElem?_append, hpos] using hv
    · simp [checksumDomain, headerLen, List.take_set_of_le hhigh, List.drop_set, hpos]

/-- A changed byte outside the stored checksum changes the computed one (41_codec.md R95). -/
theorem crc16_checksumDomain_set_ne {f : Bytes} {i : Nat} {v : Byte} (hi : i < f.length) (h22 : i ≠ 22)
    (h23 : i ≠ 23) (hv : u8 f i ≠ v) : crc16 (checksumDomain (f.set i v)) ≠ crc16 (checksumDomain f) := by
  obtain ⟨j, hj, hjv, hset⟩ := checksumDomain_set_of_ne hi h22 h23 hv
  rw [hset]
  exact crc16_set_ne hj hjv

/-! ## The commands -/

theorem exec_encode_accepted {s : State} (hb : s.busy = false) :
    exec .encode s = .next (encodeRule Config.params (clearOutcome s)) := issue_idle (encodeRule Config.params) s hb

theorem exec_decode_accepted {s : State} (hb : s.busy = false) :
    exec .decode s = .next (decodeRule Config.params (clearOutcome s)) := issue_idle (decodeRule Config.params) s hb

/-- What ENCODE does in a state that is not busy (41_codec.md R85, R86). -/
theorem exec_encode_idle {s : State} (hb : s.busy = false) :
    exec .encode s = .next (if Config.params.maxPayload < s.ibuf.length then { s with ok := false, err := 7#8 }
      else { s with
        obuf := encodeFrame Config.params s.opType s.opStream s.opSeq s.opFlags s.ibuf s.clkNow
        ok := true, err := 0#8 }) := by
  rw [exec_encode_accepted hb, encodeRule, raise_not_busy _ _ ((clearOutcome_busy s).trans hb)]
  rfl

/-- DECODE latches a packet that decodes (41_codec.md R93). -/
theorem exec_decode_ok {s : State} {pk : Packet} (hb : s.busy = false)
    (hd : decodeFrame Config.params s.ibuf = .ok pk) :
    exec .decode s = .next (succeed (latch pk s)) := by
  rw [exec_decode_accepted hb, decodeRule, clearOutcome_ibuf, hd]
  rfl

/-- Of bytes that do not decode, DECODE sets OK and ERR alone (41_codec.md R93). -/
theorem exec_decode_err {s : State} {e : ErrorCode} (hb : s.busy = false)
    (hd : decodeFrame Config.params s.ibuf = .err e) :
    exec .decode s = .next { s with ok := false, err := e.code } := by
  rw [exec_decode_accepted hb, decodeRule, clearOutcome_ibuf, hd]
  exact congrArg _ (raise_not_busy e _ ((clearOutcome_busy s).trans hb))

end Sys2Proof.Machine

/-!
# The obligations of 41_codec.md
-/

namespace Sys2Proof.Proofs

open Machine

/-- Settles O13. -/
theorem encodeWritesTheFrameToObuf : Obligations.EncodeWritesTheFrameToObuf :=
  fun _ hb => ⟨exec_encode_idle hb, encodeFrame_length ..⟩

/-- Settles O14, by what IBUF decodes to. -/
theorem decodeLatchesThePacketOfIbuf : Obligations.DecodeLatchesThePacketOfIbuf := by
  intro s hb
  refine ⟨?_, fun e => decodeFrame_err⟩
  cases hd : decodeFrame Config.params s.ibuf with
  | ok pk => exact exec_decode_ok hb hd
  | err e => exact exec_decode_err hb hd

/-- Settles O37: the fields and their numbers agree (`toNat_u16be`). -/
theorem decodeReportsTheFirstError : Obligations.DecodeReportsTheFirstError := by
  intro p f magic stored computed
  have hmagic : magic = p.protocolId.toNat ↔ u16be f 0 = p.protocolId := by
    rw [← BitVec.toNat_inj, toNat_u16be]
    rfl
  have hsum : computed = stored ↔ crc16 (checksumDomain f) = u16be f 22 := by
    rw [← BitVec.toNat_inj, toNat_u16be]
    rfl
  refine ⟨decodeFrame_tooShort_iff p f, ?_, ?_, ?_⟩
  · rw [Ne, hmagic]
    exact decodeFrame_badMagic_iff p f
  · rw [Ne, hmagic, hsum]
    exact decodeFrame_checksumMismatch_iff p f
  · rw [hmagic, hsum]
    simp [decodeFrame_ok_iff, headerLen]

/-- Settles O38: the encoded frame is a wire form with the right magic and checksum. -/
theorem decodeOfEncodedFrameIsThePacket : Obligations.DecodeOfEncodedFrameIsThePacket := by
  intro p ty sid seq fl pl now
  simp [encodeFrame, frame_eq_wire, decodeFrame_wire]

/-- Settles O39: both sequences are the frame of the packet's fields. -/
theorem decodedFrameIsTheFrameOfItsFields : Obligations.DecodedFrameIsTheFrameOfItsFields :=
  fun _ _ _ h => ⟨eq_frame_of_decodeFrame_ok h,
    fun _ h' => (eq_frame_of_decodeFrame_ok h').trans (eq_frame_of_decodeFrame_ok h).symm⟩

/-- Settles O40, by the field that holds the byte: the magic, the stored checksum, or the checksum domain. -/
theorem singleByteMutationIsDetected : Obligations.SingleByteMutationIsDetected := by
  intro p f pk i v hd hi hv
  obtain ⟨hlen, hmagic, hsum, -⟩ := (decodeFrame_ok_iff p f pk).1 hd
  have hlen' : headerLen ≤ (f.set i v).length := by simpa using hlen
  split_ifs with h2
  · rw [decodeFrame_badMagic_iff, ← hmagic]
    exact ⟨hlen', u16be_set_ne hi hv (by omega)⟩
  rw [decodeFrame_checksumMismatch_iff, u16be_set_of_ne f v (by omega) (by omega)]
  refine ⟨hlen', hmagic, ?_⟩
  by_cases hstored : i = 22 ∨ i = 23
  · rw [checksumDomain_set_stored f v hstored, hsum]
    exact (u16be_set_ne hi hv hstored).symm
  · rw [not_or] at hstored
    obtain ⟨h22, h23⟩ := hstored
    rw [u16be_set_of_ne f v h22 h23, ← hsum]
    exact crc16_checksumDomain_set_ne hi h22 h23 hv

end Sys2Proof.Proofs

/-!
# Receiving: the event at the head, the reply of the handshake, the frames by their checks

A read that stands first while the core waits is accepted (`step_read_head`), and so is a frame row
(`exec_frameRow_waiting`). Bytes that do not decode raise their error in either wait; in HelloSent a packet that decodes
is latched, and its type and its payload decide. A wire form decodes exactly where it is intact.
-/

namespace Sys2Proof.Machine

theorem busy_of_helloSent {s : State} (hs : s.fsm = .helloSent) : s.busy = true := (busy_iff s).2 (.inl hs)

theorem busy_of_kaPending {s : State} (hka : s.kaPending = true) : s.busy = true := (busy_iff s).2 (.inr hka)

/-- While busy a read that fits is accepted (44_interfaces.md R138, R139). -/
theorem receiveFrame_accepted (p : Params) {b : Bytes} {s : State} (hb : s.busy = true) (hl : b.length ≤ p.maxFrame) :
    receiveFrame p b s = .next (acceptFrame p b s) := by
  rw [receiveFrame, if_neg (by simp [hb]), if_neg (by omega)]

/-- A non-empty read that stands first while the core waits is accepted by the step, whether it is a frame of the table
or too short for one. -/
theorem step_read_head {s : State} {b : Bytes} {rest : List Event} (hb : s.busy = true)
    (hp : s.pending = .rx b :: rest) (hne : b ≠ []) (hl : b.length ≤ Config.params.maxFrame) :
    step s = .next (acceptFrame Config.params b (setPending rest s)) := by
  obtain ⟨x, xs, rfl⟩ := List.exists_cons_of_ne_nil hne
  rw [← receiveFrame_accepted _ (by simpa using hb) hl]
  simp only [step, fetch_head hp (show (Event.rx (x :: xs)).enabled s.busy false = true from hb), Event.carried]
  cases hd : decode .rx (x :: xs) with
  | ok i => exact exec_read hd _
  | error r => rfl

/-- A closure that stands first while the core waits is taken by the step (44_interfaces.md R138). -/
theorem step_closure_head {s : State} {rest : List Event} (hb : s.busy = true) (hp : s.pending = .rx [] :: rest) :
    step s = .next (raise .connectionClosed (recordRx .closed (setPending rest s))) := by
  rw [step_outside_head hp hb rfl, outside, receiveClosed, if_pos (by simpa using hb)]

/-- A frame row that fits is accepted while the core waits (44_interfaces.md R139). -/
theorem exec_frameRow_waiting {s : State} (ty : Byte) (h : Header) {pl : Bytes} (hb : s.busy = true)
    (hl : pl.length ≤ Config.params.maxPayload) :
    exec (frameRow ty h pl) s = .next (acceptFrame Config.params (wire ty h pl) s) := by
  have hfits : (wire ty h pl).length ≤ Config.params.maxFrame :=
    (wire_length_le_maxFrame_iff _ ty h pl).2 (by simpa [payloadFits] using hl)
  rw [exec_frameRow, receiveFrame_accepted _ hb hfits]

/-- Bytes that do not decode raise their error in either wait, and latch nothing (42_handshake.md R104 (a),
43_liveness.md R116). -/
theorem acceptFrame_err {p : Params} {b : Bytes} {e : ErrorCode} (hd : decodeFrame p b = .err e) (s : State) :
    acceptFrame p b s = raise e (recordRx (.frame b) s) := by
  simp only [acceptFrame, helloReply, keepaliveReply, hd, ite_self]

/-- In HelloSent a packet of another type than HandshakeResponse is latched and refused (42_handshake.md R104 (b)). -/
theorem acceptFrame_helloSent_unexpected {p : Params} {b : Bytes} {pk : Packet} {s : State} (hs : s.fsm = .helloSent)
    (hd : decodeFrame p b = .ok pk) (hty : pk.packetType ≠ 0x04#8) :
    acceptFrame p b s = raise .unexpectedPacketType (latch pk (recordRx (.frame b) s)) := by
  simp only [acceptFrame, helloReply, hd, if_pos hs, if_neg hty]

/-- In HelloSent a HandshakeResponse is latched and its payload decides (42_handshake.md R103). -/
theorem acceptFrame_helloSent_response {p : Params} {b : Bytes} {pk : Packet} {s : State} (hs : s.fsm = .helloSent)
    (hd : decodeFrame p b = .ok pk) (hty : pk.packetType = 0x04#8) :
    acceptFrame p b s = acceptAck p pk.payload (latch pk (recordRx (.frame b) s)) := by
  simp only [acceptFrame, helloReply, hd, if_pos hs, if_pos hty]

/-- In HelloSent a payload with an acceptable identifier ends in Established, and any other in Failed with AckMalformed
(42_handshake.md R103, R104 (c)). -/
theorem acceptAck_helloSent (p : Params) (pl : Bytes) {s : State} (hs : s.fsm = .helloSent) :
    acceptAck p pl s =
      match p.ackParse pl with
      | some i =>
        if i.length ≤ p.sidMax then { s with sid := i, sidValid := true, ok := true, err := 0#8, fsm := .established }
        else { s with ok := false, err := 6#8, fsm := .failed }
      | none => { s with ok := false, err := 6#8, fsm := .failed } := by
  rw [acceptAck, raise_helloSent .ackMalformed s hs]
  cases p.ackParse pl with
  | none => rfl
  | some i => rfl

/-- An intact frame decodes to its own fields (30_encoding.md R58). -/
theorem decodeFrame_wire_intact {p : Params} {ty : Byte} {h : Header} {pl : Bytes} (hi : intact p ty h pl = true) :
    decodeFrame p (wire ty h pl)
      = .ok ⟨h.protocolId, ty, h.streamId, h.sequenceNumber, h.timestamp, h.flags, h.checksum, pl⟩ := by
  obtain ⟨hmagic, hsum⟩ : h.protocolId = p.protocolId
      ∧ h.checksum = csum h.protocolId ty h.streamId h.sequenceNumber h.timestamp h.flags pl := by
    simpa [intact] using hi
  rw [decodeFrame_wire, if_neg (not_not.2 hmagic), if_neg (not_not.2 hsum.symm)]

/-- A damaged frame does not decode: the magic is tested before the checksum (41_codec.md R89, R90). -/
theorem decodeFrame_wire_damaged {p : Params} {ty : Byte} {h : Header} {pl : Bytes} (hi : intact p ty h pl = false) :
    decodeFrame p (wire ty h pl)
      = .err (if h.protocolId ≠ p.protocolId then .badMagic else .checksumMismatch) := by
  rw [decodeFrame_wire]
  split_ifs with hmagic hsum
  · rfl
  · rfl
  · rw [not_not] at hmagic hsum
    simp [intact, hmagic, ← hsum] at hi

/-- In HelloSent an intact frame of another type than HandshakeResponse is latched and fails the handshake
(42_handshake.md R104 (b), R110, 43_liveness.md R120, R121). -/
theorem exec_frameRow_unexpected_helloSent {ty : Byte} {h : Header} {pl : Bytes} {s : State} (hs : s.fsm = .helloSent)
    (hl : pl.length ≤ Config.params.maxPayload) (hty : ty ≠ 0x04#8) (hi : intact Config.params ty h pl = true) :
    exec (frameRow ty h pl) s = .next { received ty h pl s with ok := false, err := 4#8, fsm := .failed } := by
  rw [exec_frameRow_waiting ty h (busy_of_helloSent hs) hl,
    acceptFrame_helloSent_unexpected hs (decodeFrame_wire_intact hi) hty]
  exact congrArg _ (raise_helloSent _ _ hs)

/-! ## CONNECT -/

/-- What CONNECT does in a state that is not busy (42_handshake.md R100). -/
theorem exec_connect_idle {s : State} (hb : s.busy = false) :
    exec .connect s = .next (if s.fsm = .idle then
        { s with txHist := s.txHist ++ [helloFrame Config.params s], ok := false, err := 0#8, fsm := .helloSent }
      else { s with ok := false, err := 8#8 }) := by
  change issue (connectRule Config.params) s = _
  rw [issue_idle _ _ hb, connectRule, raise_not_busy _ _ ((clearOutcome_busy s).trans hb)]
  rfl

/-! ## The exits of the FSM -/

/-- An accepted command moves the FSM from Idle only (10_state.md R25). -/
theorem CommandEffect.fsm_of_not_idle {p : Params} {s t : State} {c : Byte} (ht : CommandEffect p s c t)
    (hb : s.busy = false) (hs : s.fsm ≠ .idle) : t.fsm = s.fsm := by
  obtain ⟨-, hkeepalive, hother⟩ := ht.fsm_wait hb
  by_cases hc : c = 0x11#8 ∧ s.fsm = .established
  · obtain ⟨-, hfsm, -⟩ := hkeepalive hc
    rw [hfsm, hc.2]
  · exact (hother (fun h => hs h.2) hc).1

/-! ## A wait without an event -/

/-- A core that waits, with neither a receive event nor a reset to come, and whose session, outcome and histories are
those of `s`. -/
structure WaitsAs (s t : State) : Prop where
  no_end : ∀ e ∈ t.pending, e ≠ .rst ∧ ∀ b, e ≠ .rx b
  busy : t.busy = true
  fsm : t.fsm = s.fsm
  kaPending : t.kaPending = s.kaPending
  ok : t.ok = s.ok
  err : t.err = s.err
  txHist : t.txHist = s.txHist
  rxHist : t.rxHist = s.rxHist

theorem WaitsAs.refl {s : State} (hb : s.busy = true) (he : ∀ e ∈ s.pending, e ≠ .rst ∧ ∀ b, e ≠ .rx b) :
    WaitsAs s s := ⟨he, hb, rfl, rfl, rfl, rfl, rfl, rfl⟩

/-- The taken event was pending, and what is left was pending. -/
theorem mem_pending_of_fetch {s s' : State} {e : Event} (h : s.fetch = some (e, s')) :
    e ∈ s.pending ∧ ∀ x ∈ s'.pending, x ∈ s.pending := by
  obtain ⟨before, after, hp, rfl, -⟩ := fetch_some_split h
  rw [hp, setPending_pending]
  exact ⟨by simp, fun x hx => by simp only [List.mem_append, List.mem_cons] at hx ⊢; tauto⟩

/-- A wait with no receive event and no reset to come outlasts every step (42_handshake.md R101). -/
theorem WaitsAs.after_step {s t u : State} (h : WaitsAs s t) (hstep : step t = .next u) : WaitsAs s u := by
  cases step_effect hstep with
  | wait hf => exact h
  | command v rest hf hb ht => rw [h.busy] at hb; cases hb
  | receive b rest hf hb hl ht => exact absurd rfl ((h.no_end _ (mem_pending_of_fetch hf).1).2 b)
  | reset rest hf => exact absurd rfl (h.no_end _ (mem_pending_of_fetch hf).1).1
  | plain e rest hf he ht =>
    obtain ⟨hmem, hrest⟩ := mem_pending_of_fetch hf
    obtain ⟨hrst, hrx⟩ := h.no_end e hmem
    obtain ⟨hfsm, hka, hok, herr, htx, hrxHist, hpending⟩ := outside_frame ht hrst hrx
    exact {
      no_end := fun x hx => h.no_end x (hrest x (hpending ▸ hx))
      busy := by rw [State.busy, hfsm, hka]; exact h.busy
      fsm := hfsm.trans h.fsm
      kaPending := hka.trans h.kaPending
      ok := hok.trans h.ok
      err := herr.trans h.err
      txHist := htx.trans h.txHist
      rxHist := hrxHist.trans h.rxHist }

/-! ## The default payload functions -/

/-- The white space of 42_handshake.md R109, byte by byte. -/
theorem isSpace_iff (c : Byte) : isSpace c = true ↔ c = 0x20#8 ∨ c = 0x09#8 ∨ c = 0x0A#8 ∨ c = 0x0D#8 := by
  simp [isSpace, or_assoc]

/-- The parser's parts, one behind the other (42_handshake.md R109). -/
theorem ackParseDefault_iff (p i : Bytes) :
    ackParseDefault p = some i ↔
      ∃ before w1 w2 after,
        p = before ++ sessionKey ++ w1 ++ [0x3A#8] ++ w2 ++ [0x22#8] ++ i ++ [0x22#8] ++ after
        ∧ (∀ n, n < before.length → ¬ sessionKey <+: p.drop n)
        ∧ (∀ c ∈ w1, isSpace c = true) ∧ (∀ c ∈ w2, isSpace c = true) ∧ 0x22#8 ∉ i := by
  simp only [ackParseDefault, Option.bind_eq_some_iff, afterKey_iff, expect_iff 0x3A#8 (by decide),
    expect_iff 0x22#8 (by decide), untilQuote_iff, List.append_assoc]
  constructor
  · rintro ⟨_, ⟨before, rfl, hfirst⟩, _, ⟨w1, rfl, hw1⟩, _, ⟨w2, rfl, hw2⟩, after, rfl, hi⟩
    exact ⟨before, w1, w2, after, rfl, hfirst, hw1, hw2, hi⟩
  · rintro ⟨before, w1, w2, after, hp, hfirst, hw1, hw2, hi⟩
    exact ⟨_, ⟨before, hp, hfirst⟩, _, ⟨w1, rfl, hw1⟩, _, ⟨w2, rfl, hw2⟩, after, rfl, hi⟩

/-- The sixteen digits, in order (42_handshake.md R108). -/
theorem hexDigit_eq_getD : ∀ n < 16,
    hexDigit n = ([0x30, 0x31, 0x32, 0x33, 0x34, 0x35, 0x36, 0x37, 0x38, 0x39, 0x61, 0x62, 0x63, 0x64, 0x65, 0x66] :
      Bytes).getD n 0#8 := by decide

end Sys2Proof.Machine

/-!
# The obligations of 42_handshake.md
-/

namespace Sys2Proof.Proofs

open Machine

/-- Settles O15: the nonce is `nonceBytes` of the port, and the payload the `hello` of the parameters. -/
theorem connectSendsTheHello : Obligations.ConnectSendsTheHello := fun s hb =>
  ⟨nonceBytes s.nonceIn, _, nonceBytes_length _, nonceBytes_getD _, rfl, exec_connect_idle hb, encodeFrame_length ..⟩

/-- Settles O20, by what the read decodes to, the type of its packet and what ACK_PARSE gives of its payload. -/
theorem helloSentTakesOneFrame : Obligations.HelloSentTakesOneFrame := by
  intro s b rest hs hp hne hl
  have hs' : (setPending rest s).fsm = .helloSent := hs
  rw [step_read_head (busy_of_helloSent hs) hp hne hl]
  cases hd : decodeFrame Config.params b with
  | err e =>
    rw [acceptFrame_err hd]
    exact congrArg _ (raise_helloSent e _ hs)
  | ok pk =>
    by_cases hty : pk.packetType = 0x04#8
    · rw [acceptFrame_helloSent_response hs' hd hty]
      exact congrArg _ (Eq.trans (acceptAck_helloSent _ _ hs) (if_neg (not_not.2 hty)).symm)
    · rw [acceptFrame_helloSent_unexpected hs' hd hty]
      exact congrArg _ (Eq.trans (raise_helloSent _ _ hs) (if_pos hty).symm)

/-- Settles O23: the intact frame decodes, and its payload decides. -/
theorem handshakeResponseEndsTheHandshake : Obligations.HandshakeResponseEndsTheHandshake := by
  intro h pl s hs hl hi
  have hx := exec_frameRow_waiting 0x04#8 h (busy_of_helloSent hs) hl
  rw [acceptFrame_helloSent_response hs (decodeFrame_wire_intact hi) rfl] at hx
  exact hx.trans (congrArg _ (acceptAck_helloSent _ _ hs))

/-- Settles O24, each row by its type. -/
theorem unexpectedPacketFailsTheHandshake : Obligations.UnexpectedPacketFailsTheHandshake := by
  intro h pl s hs hl
  have key (ty : Byte) (hty : ty ≠ 0x04#8) := exec_frameRow_unexpected_helloSent (h := h) hs hl hty
  refine ⟨key 0x01#8 (by decide), key 0x03#8 (by decide), key 0x05#8 (by decide), key 0x06#8 (by decide),
    fun ty hty hi => ?_⟩
  rw [← frameRow_of_reserved hty h pl]
  exact key ty (by rintro rfl; simp at hty) hi

/-- Settles O27: the frame does not decode, and the error is raised in the wait that the core is in. -/
theorem damagedPacketLatchesNothing : Obligations.DamagedPacketLatchesNothing := by
  intro ty h pl s hb hl hi code
  have hcode : (if h.protocolId ≠ Config.params.protocolId then ErrorCode.badMagic else .checksumMismatch).code
      = code := apply_ite ErrorCode.code _ _ _
  rw [exec_frameRow_waiting ty h hb hl, acceptFrame_err (decodeFrame_wire_damaged hi), ← hcode]
  by_cases hs : s.fsm = .helloSent
  · exact congrArg _ (Eq.trans (raise_helloSent _ _ hs) (if_pos hs).symm)
  · exact congrArg _ (Eq.trans (raise_keepalive _ _ hs) (if_neg hs).symm)

/-- Settles O42: a command moves the FSM from Idle only, and a receive event from HelloSent only. -/
theorem establishedAndFailedLeftOnlyByReset : Obligations.EstablishedAndFailedLeftOnlyByReset := by
  intro s t hstep hs hne
  have hidle : s.fsm ≠ .idle := by rcases hs with hs | hs <;> simp [hs]
  have hsent : s.fsm ≠ .helloSent := by rcases hs with hs | hs <;> simp [hs]
  cases step_effect hstep with
  | wait hf => exact absurd rfl hne
  | command v rest hf hb ht => exact absurd (ht.fsm_of_not_idle hb hidle) hne
  | receive b rest hf hb hl ht => exact absurd (ht.fsm_of_keepalive hsent).1 hne
  | reset rest hf => exact ⟨_, hf, rfl⟩
  | plain e rest hf he ht => exact absurd (outside_keeps_session ht he).1 hne

/-- Settles O51: every step keeps the wait (`WaitsAs.after_step`), and a state in which nothing can happen is fixed. -/
theorem waitWithoutAnEventNeverEnds : Obligations.WaitWithoutAnEventNeverEnds := by
  refine ⟨fun s t k hb he hrun => ?_, fun s k hb hp => ?_⟩
  · have h : WaitsAs s t := run_keeps Sys2Proof.core (fun _ _ => WaitsAs.after_step) k (.refl hb he) hrun
    exact ⟨h.busy, h.fsm, h.kaPending, h.ok, h.err, h.txHist, h.rxHist⟩
  · have hf : s.fetch = none := by rw [fetch_none_iff, hb]; exact (pick_none_busy s.pending).2 hp
    exact ⟨⟨hb, hf⟩, run_fixed Sys2Proof.core (step_of_fetch_none hf) k⟩

/-- Settles O53: the parser's parts (`ackParseDefault_iff`), with the key and the white space written out. -/
theorem defaultAckParseFindsTheIdentifier : Obligations.DefaultAckParseFindsTheIdentifier := by
  intro p i key space
  have hspace : ∀ c, isSpace c = true ↔ space c := isSpace_iff
  simp only [ackParseDefault_iff, hspace]
  rfl

/-- Settles O54: the digits of each byte, and the decimal text of the version. -/
theorem defaultHelloTextIsExact : Obligations.DefaultHelloTextIsExact := by
  intro nonce version digits
  obtain ⟨hne, hdigits, hzero, hvalue, -⟩ := decimalFuel_spec (version + 1) version (Nat.lt_succ_self version)
  refine ⟨hexBytes nonce, decimal version, rfl, hexBytes_length nonce, fun k hk => ?_, hne, hdigits, hzero, hvalue⟩
  have hbyte : (nonce.getD k 0#8).toNat < 256 := (nonce.getD k 0#8).isLt
  obtain ⟨hhigh, hlow⟩ := hexBytes_getD nonce k hk
  exact ⟨hhigh.trans (hexDigit_eq_getD _ (by omega)), hlow.trans (hexDigit_eq_getD _ (by omega))⟩

/-- Settles O22, by the wait that the closure ends. -/
theorem closureWhileWaiting : Obligations.ClosureWhileWaiting := by
  intro s rest hp
  refine ⟨fun hs => ?_, fun hs hka => ?_⟩
  · rw [step_closure_head (busy_of_helloSent hs) hp]
    exact congrArg _ (raise_helloSent _ _ hs)
  · rw [step_closure_head (busy_of_kaPending hka) hp]
    exact congrArg _ (raise_keepalive _ _ (by simp [hs]))

end Sys2Proof.Proofs

/-!
# Liveness: the two session commands, the reply of a keepalive wait

In Established KEEPALIVE and DISCONNECT send their control frame. In a keepalive wait a packet that decodes is latched,
and its type alone decides whether the keepalive is answered.
-/

namespace Sys2Proof.Machine

/-- A control frame has no payload (43_liveness.md R115, R119). -/
theorem controlFrame_length (p : Params) (ty : Byte) (s : State) : (controlFrame p ty s).length = 24 :=
  encodeFrame_length ..

/-- What KEEPALIVE does in a state that is not busy (43_liveness.md R115). -/
theorem exec_keepalive_idle {s : State} (hb : s.busy = false) :
    exec .keepalive s = .next (if s.fsm = .established then
        { s with
          txHist := s.txHist ++ [controlFrame Config.params 0x05#8 s], ok := false, err := 0#8, kaPending := true }
      else { s with ok := false, err := 8#8 }) := by
  change issue (keepaliveRule Config.params) s = _
  rw [issue_idle _ _ hb, keepaliveRule, raise_not_busy _ _ ((clearOutcome_busy s).trans hb)]
  rfl

/-- What DISCONNECT does in a state that is not busy (43_liveness.md R119). -/
theorem exec_disconnect_idle {s : State} (hb : s.busy = false) :
    exec .disconnect s = .next (if s.fsm = .established then
        { s with txHist := s.txHist ++ [controlFrame Config.params 0x06#8 s], ok := true, err := 0#8 }
      else { s with ok := false, err := 8#8 }) := by
  change issue (disconnectRule Config.params) s = _
  rw [issue_idle _ _ hb, disconnectRule, raise_not_busy _ _ ((clearOutcome_busy s).trans hb)]
  rfl

/-- In a keepalive wait a Keepalive is latched and ends the wait with success (43_liveness.md R116). -/
theorem acceptFrame_keepalive_answered {p : Params} {b : Bytes} {pk : Packet} {s : State} (hs : s.fsm ≠ .helloSent)
    (hd : decodeFrame p b = .ok pk) (hty : pk.packetType = 0x05#8) :
    acceptFrame p b s = setKaPending false (succeed (latch pk (recordRx (.frame b) s))) := by
  simp only [acceptFrame, keepaliveReply, hd, if_neg hs, if_pos hty]

/-- In a keepalive wait a packet of another type is latched and refused (43_liveness.md R116). -/
theorem acceptFrame_keepalive_unexpected {p : Params} {b : Bytes} {pk : Packet} {s : State} (hs : s.fsm ≠ .helloSent)
    (hd : decodeFrame p b = .ok pk) (hty : pk.packetType ≠ 0x05#8) :
    acceptFrame p b s = raise .unexpectedPacketType (latch pk (recordRx (.frame b) s)) := by
  simp only [acceptFrame, keepaliveReply, hd, if_neg hs, if_neg hty]

/-- In a keepalive wait an intact frame of another type than Keepalive is latched and ends the wait with
UnexpectedPacketType (43_liveness.md R116, R120, R121). -/
theorem exec_frameRow_unexpected_keepalive {ty : Byte} {h : Header} {pl : Bytes} {s : State} (hs : s.fsm ≠ .helloSent)
    (hka : s.kaPending = true) (hl : pl.length ≤ Config.params.maxPayload) (hty : ty ≠ 0x05#8)
    (hi : intact Config.params ty h pl = true) :
    exec (frameRow ty h pl) s
      = .next { received ty h pl s with ok := false, err := 4#8, kaPending := false } := by
  rw [exec_frameRow_waiting ty h (busy_of_kaPending hka) hl,
    acceptFrame_keepalive_unexpected hs (decodeFrame_wire_intact hi) hty]
  exact congrArg _ (raise_keepalive _ _ hs)

end Sys2Proof.Machine

/-!
# The obligations of 43_liveness.md
-/

namespace Sys2Proof.Proofs

open Machine

/-- Settles O16. -/
theorem keepaliveSendsAndWaits : Obligations.KeepaliveSendsAndWaits :=
  fun s hb => ⟨exec_keepalive_idle hb, controlFrame_length Config.params 0x05#8 s⟩

/-- Settles O17. -/
theorem disconnectSendsAndForgets : Obligations.DisconnectSendsAndForgets :=
  fun s hb => ⟨exec_disconnect_idle hb, controlFrame_length Config.params 0x06#8 s⟩

/-- Settles O21, by what the read decodes to and the type of its packet. -/
theorem keepaliveWaitTakesOneFrame : Obligations.KeepaliveWaitTakesOneFrame := by
  intro s b rest hs hka hp hne hl
  have hs' : (setPending rest s).fsm ≠ .helloSent := by simp [hs]
  rw [step_read_head (busy_of_kaPending hka) hp hne hl]
  cases hd : decodeFrame Config.params b with
  | err e =>
    rw [acceptFrame_err hd]
    exact congrArg _ (raise_keepalive e _ hs')
  | ok pk =>
    by_cases hty : pk.packetType = 0x05#8
    · rw [acceptFrame_keepalive_answered hs' hd hty]
      exact congrArg _ (if_pos hty).symm
    · rw [acceptFrame_keepalive_unexpected hs' hd hty]
      exact congrArg _ (Eq.trans (raise_keepalive _ _ hs') (if_neg hty).symm)

/-- Settles O25: the intact frame decodes to a Keepalive. -/
theorem keepalivePacketAnswersTheKeepalive : Obligations.KeepalivePacketAnswersTheKeepalive := by
  intro h pl s hs hka hl hi
  have hx := exec_frameRow_waiting 0x05#8 h (busy_of_kaPending hka) hl
  rwa [acceptFrame_keepalive_answered hs (decodeFrame_wire_intact hi) rfl] at hx

/-- Settles O26, each row by its type. -/
theorem unexpectedPacketIsALivenessFailure : Obligations.UnexpectedPacketIsALivenessFailure := by
  intro h pl s hs hka hl
  have key (ty : Byte) (hty : ty ≠ 0x05#8) := exec_frameRow_unexpected_keepalive (h := h) hs hka hl hty
  refine ⟨key 0x01#8 (by decide), key 0x03#8 (by decide), key 0x04#8 (by decide), key 0x06#8 (by decide),
    fun ty hty hi => ?_⟩
  rw [← frameRow_of_reserved hty h pl]
  exact key ty (by rintro rfl; simp at hty) hi

end Sys2Proof.Proofs

/-!
# The interfaces: which command transmits, what a step receives, that a known event has a step

`step` runs what the fetched event carries (`step_carried`), and does what the event does where it carries nothing
(`step_outside`). Every command is the issue of one rule (`exec_command_issue`); every read goes to `receiveFrame`.
-/

namespace Sys2Proof.Machine

/-! ## The step, by what the fetched event carries -/

/-- The bytes that the fetched event carries are run as the instruction that they decode to. -/
theorem step_carried {s s' : State} {e : Event} {port : Port} {bytes : Bytes} {i : Instr}
    (hf : s.fetch = some (e, s')) (hc : e.carried = some (port, bytes)) (hd : decode port bytes = .ok i) :
    step s = exec i s' := by
  simp only [step, hf, hc, hd]

theorem step_outside {s s' : State} {e : Event} (hf : s.fetch = some (e, s')) (hc : e.carried = none) :
    step s = outside e s' := by
  simp only [step, hf, hc]

/-- What carries an instruction is a write to CMD or a read that returned bytes (44_interfaces.md R131, R138). -/
theorem carried_cases {e : Event} {port : Port} {bytes : Bytes} (hc : e.carried = some (port, bytes)) :
    (∃ v, e = .host (.writeReg 0x08#8 v) ∧ port = .cmd ∧ bytes = [v.setWidth 8])
    ∨ (e = .rx bytes ∧ port = .rx) := by
  cases e with
  | host op =>
    cases op with
    | writeReg n v =>
      obtain ⟨rfl, rfl, rfl⟩ : n = cmdReg ∧ .cmd = port ∧ [v.setWidth 8] = bytes := by
        simpa [Event.carried] using hc
      exact .inl ⟨v, rfl, rfl, rfl⟩
    | readReg | loadIbuf | readObuf | readSid => cases hc
  | rx b =>
    cases b with
    | nil => cases hc
    | cons x xs => cases hc; exact .inr ⟨rfl, rfl⟩
  | rst | ports => cases hc

/-- Only a read that returned no bytes carries nothing: closure (44_interfaces.md R138). -/
theorem read_empty_of_carried_none {b : Bytes} (hc : (Event.rx b).carried = none) : b = [] := by
  cases b with
  | nil => rfl
  | cons x xs => cases hc

/-- A read that carries bytes is received as it is, whether or not it is a frame of the table. -/
theorem step_carried_read {s s' : State} {b : Bytes} (hf : s.fetch = some (.rx b, s'))
    (hc : (Event.rx b).carried = some (.rx, b)) : step s = receiveFrame Config.params b s' := by
  cases hd : decode .rx b with
  | ok i => rw [step_carried hf hc hd, exec_read hd]
  | error r => simp only [step, hf, hc, hd, receiveOther]

/-- A write to CMD that stands first while the core is not busy is run by the step (44_interfaces.md R131, R132). -/
theorem step_command_head {s : State} {v : BitVec 64} {rest : List Event} (hb : s.busy = false)
    (hp : s.pending = .host (.writeReg 0x08#8 v) :: rest) :
    step s = exec (decodeCommand (v.setWidth 8)) (setPending rest s) := by
  have he : (Event.host (.writeReg 0x08#8 v)).enabled s.busy false = true := by simp [Event.enabled, hb]
  exact step_carried (fetch_head hp he) rfl (decode_cmd _)

/-- A read that stands first while the core waits is run by the step as the row that its bytes decode to
(44_interfaces.md R138, R139). -/
theorem step_frame_head {s : State} {b : Bytes} {rest : List Event} {i : Instr} (hb : s.busy = true)
    (hp : s.pending = .rx b :: rest) (hd : decode .rx b = .ok i) : step s = exec i (setPending rest s) := by
  cases b with
  | nil => cases hd
  | cons x xs => exact step_carried (fetch_head hp hb) rfl hd

/-! ## The instructions, busy and not busy -/

/-- Every command is the issue of one rule (44_interfaces.md R132, R133). -/
theorem exec_command_issue (c : Byte) : ∃ rule, ∀ s, exec (decodeCommand c) s = issue rule s := by
  rcases reserved_or_named_command c with h | rfl | rfl | rfl | rfl | rfl | rfl
  · rw [decodeCommand_of_reserved h]
    exact ⟨raise .illegalCommand, fun _ => rfl⟩
  · exact ⟨crcRule, fun _ => rfl⟩
  · exact ⟨encodeRule Config.params, fun _ => rfl⟩
  · exact ⟨decodeRule Config.params, fun _ => rfl⟩
  · exact ⟨connectRule Config.params, fun _ => rfl⟩
  · exact ⟨keepaliveRule Config.params, fun _ => rfl⟩
  · exact ⟨disconnectRule Config.params, fun _ => rfl⟩

theorem exec_command_busy (c : Byte) {s : State} (hb : s.busy = true) : exec (decodeCommand c) s = .next s := by
  obtain ⟨rule, hissue⟩ := exec_command_issue c
  rw [hissue, issue_busy rule s hb]

theorem receiveFrame_not_busy (p : Params) (b : Bytes) {s : State} (hb : s.busy = false) :
    receiveFrame p b s = .next s := if_pos hb

/-! ## Placing an instruction (log 4) -/

@[simp] theorem readyForCommand_busy (s : State) : (readyForCommand s).busy = false := by
  rw [not_busy_iff, readyForCommand]
  split
  next hs => exact ⟨nofun, rfl⟩
  next hs => exact ⟨hs, rfl⟩

@[simp] theorem readyForCommand_pending (s : State) : (readyForCommand s).pending = s.pending := by
  rw [readyForCommand]
  split <;> rfl

@[simp] theorem readyForFrame_busy (s : State) : (readyForFrame s).busy = true := by
  rw [readyForFrame]
  split_ifs with hb hs
  · exact hb
  · exact busy_of_kaPending rfl
  · exact busy_of_helloSent rfl

@[simp] theorem readyForFrame_pending (s : State) : (readyForFrame s).pending = s.pending := by
  rw [readyForFrame]
  split_ifs <;> rfl

/-- The events that are put back are the ones that were there. -/
theorem setPending_setPending_of_eq {s : State} {es : List Event} (h : s.pending = es) (es' : List Event) :
    setPending es (setPending es' s) = s := by
  subst h
  rfl

theorem step_place_command (c : Byte) (s : State) :
    step (place .cmd [c] s) = exec (decodeCommand c) (readyForCommand s) := by
  have hbusy : (place .cmd [c] s).busy = false := readyForCommand_busy s
  have hcode : (c.setWidth 64).setWidth 8 = c := by simp
  rw [step_command_head hbusy rfl, hcode]
  exact congrArg _ (setPending_setPending_of_eq (readyForCommand_pending s) _)

theorem step_place_frame (ty : Byte) (h : Header) (pl : Bytes) (s : State) :
    step (place .rx (wire ty h pl) s) = exec (frameRow ty h pl) (readyForFrame s) := by
  have hbusy : (place .rx (wire ty h pl) s).busy = true := readyForFrame_busy s
  rw [step_frame_head hbusy rfl (decode_wire ty h pl)]
  exact congrArg _ (setPending_setPending_of_eq (readyForFrame_pending s) _)

/-! ## The two histories -/

/-- A command of code `c` transmits in the state `f` of the FSM (44_interfaces.md R137). -/
def Transmits (c : Byte) (f : Fsm) : Prop :=
  (c = 0x10#8 ∧ f = .idle) ∨ (c = 0x11#8 ∧ f = .established) ∨ (c = 0x12#8 ∧ f = .established)

section
variable {p : Params} {s t : State}

/-- A command that transmits sends one frame, and any other none. -/
theorem CommandEffect.txHist {c : Byte} (ht : CommandEffect p s c t) :
    (Transmits c s.fsm ∧ ∃ f, t.txHist = s.txHist ++ [f]) ∨ (¬ Transmits c s.fsm ∧ t.txHist = s.txHist) := by
  cases ht with
  | connected hc hs => exact .inl ⟨.inl ⟨hc, hs⟩, _, rfl⟩
  | waiting hc hs => exact .inl ⟨.inr (.inl ⟨hc, hs⟩), _, rfl⟩
  | disconnected hc hs => exact .inl ⟨.inr (.inr ⟨hc, hs⟩), _, rfl⟩
  | illegal _ hconnect hsession =>
    refine .inr ⟨?_, rfl⟩
    rintro (⟨hc, hs⟩ | ⟨hc, hs⟩ | ⟨hc, hs⟩)
    · exact hconnect hc hs
    · exact hsession (by simp [hc]) hs
    · exact hsession (by simp [hc]) hs
  | checksum hc | encoded hc | tooLong hc | decoded pk hc | undecoded e hc => simp [Transmits, hc]

theorem CommandEffect.rxHist {c : Byte} (ht : CommandEffect p s c t) : t.rxHist = s.rxHist := by
  cases ht <;> rfl

theorem ReceiveEffect.txHist {b : Bytes} (ht : ReceiveEffect p s b t) : t.txHist = s.txHist := by
  cases ht <;> rfl

/-- An accepted frame is recorded whatever becomes of it (20_memory.md R43). -/
theorem acceptFrame_rxHist (p : Params) (b : Bytes) (s : State) :
    (acceptFrame p b s).rxHist = s.rxHist ++ [.frame b] := by
  rcases acceptFrame_cases p b s with
    ⟨e, _, ht⟩ | ⟨e, pk, _, _, ht⟩ | ⟨_, pk, i, _, _, _, _, ht⟩ | ⟨_, pk, _, _, ht⟩ <;> rw [ht] <;> rfl

theorem receiveClosed_rxHist (hb : s.busy = true) : (receiveClosed s).rxHist = s.rxHist ++ [.closed] := by
  rw [receiveClosed, if_pos hb]
  rfl

/-- What is outside the instructions and no receive event leaves both histories, reset included
(70_reset_and_hazards.md R176). -/
theorem outside_keeps_histories {e : Event} (ht : outside e s = .next t) (hx : ∀ b, e ≠ .rx b) :
    t.txHist = s.txHist ∧ t.rxHist = s.rxHist := by
  by_cases hr : e = .rst
  · subst hr
    cases ht
    exact ⟨rfl, rfl⟩
  · obtain ⟨-, -, -, -, htx, hrx, -⟩ := outside_frame ht hr hx
    exact ⟨htx, hrx⟩

theorem Event.Plain.ne_command {e : Event} (he : e.Plain) (v : BitVec 64) : e ≠ .host (.writeReg 0x08#8 v) := by
  rintro rfl
  cases he with | write n v hn => exact hn rfl

theorem Event.Plain.ne_read {e : Event} (he : e.Plain) (b : Bytes) : e ≠ .rx b := by
  rintro rfl
  cases he

/-- The next step takes a write to CMD of a command that transmits. -/
def TakesTransmission (s : State) : Prop :=
  ∃ (v : BitVec 64) (s' : State), s.fetch = some (.host (.writeReg 0x08#8 v), s') ∧ Transmits (v.setWidth 8) s.fsm

theorem takesTransmission_iff {s' : State} {v : BitVec 64} (hf : s.fetch = some (.host (.writeReg 0x08#8 v), s')) :
    TakesTransmission s ↔ Transmits (v.setWidth 8) s.fsm := by
  simp [TakesTransmission, hf]

theorem not_takesTransmission {s' : State} {e : Event} (hf : s.fetch = some (e, s'))
    (he : ∀ v, e ≠ .host (.writeReg 0x08#8 v)) : ¬ TakesTransmission s := by
  simp [TakesTransmission, hf, he]

/-- A step sends one frame where it takes a transmission, and none otherwise (44_interfaces.md R137). -/
theorem step_txHist (h : step s = .next t) :
    (TakesTransmission s ∧ ∃ f, t.txHist = s.txHist ++ [f]) ∨ (¬ TakesTransmission s ∧ t.txHist = s.txHist) := by
  cases step_effect h with
  | wait hf => exact .inr ⟨by simp [TakesTransmission, hf], rfl⟩
  | command v rest hf hb ht =>
    rw [takesTransmission_iff hf]
    exact ht.txHist
  | receive b rest hf hb hl ht => exact .inr ⟨not_takesTransmission hf nofun, ht.txHist⟩
  | reset rest hf => exact .inr ⟨not_takesTransmission hf nofun, rfl⟩
  | plain e rest hf he ht =>
    exact .inr ⟨not_takesTransmission hf he.ne_command, (outside_keeps_histories ht he.ne_read).1⟩

/-! ## The events to come -/

theorem CommandEffect.pending {c : Byte} (ht : CommandEffect p s c t) : t.pending = s.pending := by
  cases ht <;> rfl

theorem ReceiveEffect.pending {b : Bytes} (ht : ReceiveEffect p s b t) : t.pending = s.pending := by
  cases ht <;> rfl

theorem outside_keeps_pending {e : Event} (ht : outside e s = .next t) (he : e.Plain) : t.pending = s.pending := by
  obtain ⟨-, -, -, -, -, -, hpending⟩ := outside_frame ht (by cases he <;> nofun) he.ne_read
  exact hpending

/-- A step takes an event and brings none. -/
theorem mem_pending_of_step (h : step s = .next t) {e : Event} (he : e ∈ t.pending) : e ∈ s.pending := by
  cases step_effect h with
  | wait hf => exact he
  | command v rest hf hb ht => exact (mem_pending_of_fetch hf).2 e (ht.pending ▸ he)
  | receive b rest hf hb hl ht => exact (mem_pending_of_fetch hf).2 e (ht.pending ▸ he)
  | reset rest hf => exact (mem_pending_of_fetch hf).2 e he
  | plain e' rest hf he' ht => exact (mem_pending_of_fetch hf).2 e (outside_keeps_pending ht he' ▸ he)

end

/-! ## No stop -/

theorem exec_command_next (c : Byte) (s : State) : ∃ t, exec (decodeCommand c) s = .next t := by
  obtain ⟨rule, hissue⟩ := exec_command_issue c
  exact ⟨_, hissue s⟩

/-- A read that fits has a next state, busy or not. -/
theorem receiveFrame_next {p : Params} {b : Bytes} (hl : b.length ≤ p.maxFrame) (s : State) :
    ∃ t, receiveFrame p b s = .next t := by
  cases hb : s.busy with
  | false => exact ⟨s, receiveFrame_not_busy p b hb⟩
  | true => exact ⟨_, receiveFrame_accepted p hb hl⟩

/-- What is outside the instructions is refused for a load that does not fit alone (log 10). -/
theorem outside_next {e : Event} (he : e.bounded Config.params = true) (s : State) :
    ∃ t, outside e s = .next t := by
  cases e with
  | host op =>
    cases op with
    | loadIbuf b =>
      have hl : b.length ≤ Config.params.maxFrame := of_decide_eq_true he
      exact ⟨_, if_neg (not_lt.2 hl)⟩
    | writeReg | readReg | readObuf | readSid => exact ⟨_, rfl⟩
  | rx | rst | ports => exact ⟨_, rfl⟩

/-- A step that takes an event the spec knows has a next state (44_interfaces.md R138, 10_state.md R15). -/
theorem step_next_of_bounded {s s' : State} {e : Event} (hf : s.fetch = some (e, s'))
    (he : e.bounded Config.params = true) : ∃ t, step s = .next t := by
  cases hc : e.carried with
  | none =>
    rw [step_outside hf hc]
    exact outside_next he s'
  | some carried =>
    obtain ⟨port, bytes⟩ := carried
    obtain ⟨v, rfl, rfl, rfl⟩ | ⟨rfl, rfl⟩ := carried_cases hc
    · rw [step_carried hf hc (decode_cmd _)]
      exact exec_command_next _ s'
    · rw [step_carried_read hf hc]
      exact receiveFrame_next (of_decide_eq_true he) s'

end Sys2Proof.Machine

/-!
# The obligations of 44_interfaces.md
-/

namespace Sys2Proof.Proofs

open Machine

/-- Settles O9: what a fetched event carries is run, and the head is fetched where it can happen. -/
theorem stepRunsTheDecodedInstruction : Obligations.StepRunsTheDecodedInstruction := by
  refine ⟨fun _ _ _ => step_command_head, fun _ _ _ _ => step_frame_head, fun s s' e port bytes i hf hc hd => ?_⟩
  obtain ⟨rest, _, _, rfl⟩ := fetch_spec hf
  exact ⟨step_carried hf hc hd, rfl⟩

/-- Settles O11: a well-formed instruction at the command port is the row of its code, and one at the receive port the
row of its type. -/
theorem placedInstructionRunsNext : Obligations.PlacedInstructionRunsNext := by
  refine ⟨fun i s hwf hport => ⟨?_, readyForCommand_busy s⟩, fun i s hwf hport => ⟨?_, readyForFrame_busy s⟩⟩
  all_goals obtain ⟨c, rfl⟩ | ⟨ty, h, pl, rfl⟩ := command_or_frame_of_wf hwf
  · rw [encode_decodeCommand]
    exact step_place_command c s
  · simp at hport
  · simp at hport
  · rw [encode_frameRow]
    exact step_place_frame ty h pl s

/-- Settles O19: a command is issued, which while busy changes nothing, and a write to CMD holds the host. -/
theorem commandIsNotAcceptedWhileBusy : Obligations.CommandIsNotAcceptedWhileBusy := by
  refine fun s hb => ⟨fun c => exec_command_busy c hb, fun v rest hp hrest => step_of_fetch_none ?_⟩
  rw [fetch_none_iff, hb, pick_none_busy]
  exact .inr ⟨v, rest, hp, hrest⟩

/-- Settles O28: a packet is received, which while not busy changes nothing, and no read can happen. -/
theorem frameIsNotReadWhileNotBusy : Obligations.FrameIsNotReadWhileNotBusy := by
  refine fun s hb => ⟨fun ty h pl => ?_, fun hp => step_of_fetch_none ?_⟩
  · rw [exec_frameRow, receiveFrame_not_busy _ _ hb]
  · rw [fetch_none_iff, hb, pick_none_idle]
    exact hp

/-- Settles O43: a step transmits one frame where it takes a transmission, and none otherwise. -/
theorem onlyThreeCommandsTransmit : Obligations.OnlyThreeCommandsTransmit := by
  intro s t hstep
  obtain ⟨htakes, hsent⟩ | ⟨hnone, htx⟩ := step_txHist hstep
  · exact ⟨iff_of_true hsent htakes, .inl hsent⟩
  · exact ⟨iff_of_false (by simp [htx]) hnone, .inr htx⟩

/-- Settles O46: a read that returned bytes is recorded as a frame, one of no bytes as closure, and nothing else is
recorded. -/
theorem receiveHistoryIsTheAcceptedEvents : Obligations.ReceiveHistoryIsTheAcceptedEvents := by
  intro s t hstep
  rcases step_cases hstep with
    ⟨hf, rfl⟩ | ⟨v, s', hf, hb, hx⟩ | ⟨b, bs, s', hf, hb, hl, rfl⟩ | ⟨e, s', hf, hc, hx⟩
  · exact .inl ⟨rfl, by simp [hf]⟩
  all_goals obtain ⟨rest, _, _, rfl⟩ := fetch_spec hf
  · have hidle : (setPending rest s).busy = false := hb
    exact .inl ⟨(exec_command_effect hidle hx).rxHist, by simp [hf]⟩
  · exact .inr ⟨_, _, hf, hb, acceptFrame_rxHist _ _ _⟩
  by_cases hread : ∃ b, e = .rx b
  · obtain ⟨b, rfl⟩ := hread
    obtain rfl := read_empty_of_carried_none hc
    have hb := fetch_rx_busy hf
    cases hx
    exact .inr ⟨[], _, hf, hb, receiveClosed_rxHist hb⟩
  · rw [not_exists] at hread
    exact .inl ⟨(outside_keeps_histories hx hread).2, by simpa [hf] using fun b h => absurd h (hread b)⟩

/-- Settles O52: the event that the step takes is one the spec knows, and what is left was to come before. -/
theorem knownEventsNeverStopTheMachine : Obligations.KnownEventsNeverStopTheMachine := by
  intro s hsafe
  obtain ⟨t, hstep⟩ : ∃ t, step s = .next t := by
    cases hf : s.fetch with
    | none => exact ⟨s, step_of_fetch_none hf⟩
    | some taken => exact step_next_of_bounded hf (hsafe _ (mem_pending_of_fetch hf).1)
  exact ⟨t, hstep, fun e he => hsafe e (mem_pending_of_step hstep he)⟩

end Sys2Proof.Proofs

/-!
# The exceptions: what an illegal command does, how long an outcome stays, that no error damages the codec

In a state that is not busy every command's next state is known in full, so what an illegal command does, and what the
results of CRC16, ENCODE and DECODE depend on, are read off there.
-/

namespace Sys2Proof.Machine

/-- What a reserved command does in a state that is not busy, whatever its code (30_encoding.md R61). -/
theorem exec_reservedCmd_idle (c : Byte) {s : State} (hb : s.busy = false) :
    exec (.reservedCmd c) s = .next { s with ok := false, err := 8#8 } := by
  change issue (raise .illegalCommand) s = _
  rw [issue_idle _ _ hb, raise_not_busy _ _ ((clearOutcome_busy s).trans hb)]
  rfl

/-- An event that is neither a command nor a receive event carries no instruction. -/
theorem carried_none_of_ne {e : Event} (hcmd : ∀ v, e ≠ .host (.writeReg 0x08#8 v)) (hrx : ∀ b, e ≠ .rx b) :
    e.carried = none := by
  refine Option.eq_none_iff_forall_ne_some.2 fun ⟨port, bytes⟩ hc => ?_
  obtain ⟨v, he, -⟩ | ⟨he, -⟩ := carried_cases hc
  · exact hcmd v he
  · exact hrx bytes he

end Sys2Proof.Machine

/-!
# The obligations of 60_exceptions.md
-/

namespace Sys2Proof.Proofs

open Machine

/-- Settles O18: a reserved code by its row, CONNECT, KEEPALIVE and DISCONNECT by the branch of their rule for the
other states of the FSM. -/
theorem illegalCommandSetsOnlyTheOutcome : Obligations.IllegalCommandSetsOnlyTheOutcome := by
  refine fun s hb => ⟨fun c hc => ?_, fun c => exec_reservedCmd_idle c hb, fun hs => ?_, fun hs => ?_, fun hs => ?_⟩
  · rw [decodeCommand_of_reserved hc]
    exact ⟨rfl, exec_reservedCmd_idle c hb⟩
  · rw [exec_connect_idle hb, if_neg hs]
  · rw [exec_keepalive_idle hb, if_neg hs]
  · rw [exec_disconnect_idle hb, if_neg hs]

/-- Settles O48: the event carries no instruction, and what it does outside the instructions leaves the outcome. -/
theorem outcomeStaysUntilTheNextCommand : Obligations.OutcomeStaysUntilTheNextCommand := by
  intro s s' t e hf hstep hcmd hrx hrst
  rw [step_outside hf (carried_none_of_ne hcmd hrx)] at hstep
  obtain ⟨rest, _, _, rfl⟩ := fetch_spec hf
  obtain ⟨-, -, hok, herr, -⟩ := outside_frame hstep hrst hrx
  exact ⟨hok, herr⟩

/-- Settles O50: both states take the same branch of each command's rule, since the same IBUF decides it, and what that
branch writes names the operands alone. -/
theorem codecResultsDependOnOperandsAlone : Obligations.CodecResultsDependOnOperandsAlone := by
  intro s r hs hr hibuf
  refine ⟨⟨_, _, exec_crc16_idle hs, exec_crc16_idle hr, congrArg crc16 hibuf, rfl, rfl⟩, ?_, ?_⟩
  · cases hd : decodeFrame Config.params s.ibuf with
    | ok pk =>
      exact ⟨_, _, exec_decode_ok hs hd, exec_decode_ok hr (hibuf ▸ hd), rfl, rfl,
        fun _ => ⟨rfl, rfl, rfl, rfl, rfl, rfl, rfl⟩⟩
    | err e => exact ⟨_, _, exec_decode_err hs hd, exec_decode_err hr (hibuf ▸ hd), rfl, rfl, nofun⟩
  · intro htype hstream hseq hflags hclk
    refine ⟨_, _, exec_encode_idle hs, exec_encode_idle hr, ?_⟩
    rw [htype, hstream, hseq, hflags, hclk, hibuf]
    split
    · exact ⟨rfl, rfl, nofun⟩
    · exact ⟨rfl, rfl, fun _ => rfl⟩

end Sys2Proof.Proofs

/-!
# Reset and hazards: the reset input, and operands that change while a command waits

The reset input is enabled in every state, so at the head of the events to come it is the next step (`step_reset_head`).
What an accepted frame does reads neither the operand registers nor IBUF nor the input ports and writes none of them: it
commutes with `withOperandsOf`, which gives a state those values of another.
-/

namespace Sys2Proof.Machine

/-! ## Reset -/

/-- The reset input that stands first is taken from any state, busy or not (70_reset_and_hazards.md R175). -/
theorem step_reset_head {s : State} {rest : List Event} (hp : s.pending = .rst :: rest) :
    step s = .next (resetCore (setPending rest s)) :=
  step_outside_head hp rfl rfl

/-- After the reset input STATUS reads 0, whatever stays outside the core (10_state.md R27). -/
theorem readReg_status_resetCore (s : State) : readReg (resetCore s) 0x09#8 = 0 :=
  toNat_statusWord (resetCore s)

/-! ## Operands that change while a command waits -/

/-- `s` with the operand registers, IBUF and the values on the input ports of `o`: all that a command reads at its
acceptance (20_memory.md R41). -/
def withOperandsOf (o s : State) : State :=
  { s with
    opType := o.opType, opStream := o.opStream, opSeq := o.opSeq, opFlags := o.opFlags, ibuf := o.ibuf
    clkNow := o.clkNow, nonceIn := o.nonceIn }

section
variable (o s : State) (p : Params)

@[simp] theorem withOperandsOf_fsm : (withOperandsOf o s).fsm = s.fsm := rfl

@[simp] theorem withOperandsOf_busy : (withOperandsOf o s).busy = s.busy := rfl

@[simp] theorem recordRx_withOperandsOf (e : RxEvent) :
    recordRx e (withOperandsOf o s) = withOperandsOf o (recordRx e s) := rfl

@[simp] theorem latch_withOperandsOf (pk : Packet) :
    latch pk (withOperandsOf o s) = withOperandsOf o (latch pk s) := rfl

@[simp] theorem raise_withOperandsOf (e : ErrorCode) :
    raise e (withOperandsOf o s) = withOperandsOf o (raise e s) := rfl

@[simp] theorem establish_withOperandsOf (i : Bytes) :
    establish i (withOperandsOf o s) = withOperandsOf o (establish i s) := rfl

@[simp] theorem succeed_withOperandsOf : succeed (withOperandsOf o s) = withOperandsOf o (succeed s) := rfl

@[simp] theorem setKaPending_withOperandsOf (b : Bool) :
    setKaPending b (withOperandsOf o s) = withOperandsOf o (setKaPending b s) := rfl

@[simp] theorem acceptAck_withOperandsOf (pl : Bytes) :
    acceptAck p pl (withOperandsOf o s) = withOperandsOf o (acceptAck p pl s) := by
  unfold acceptAck
  cases p.ackParse pl with
  | none => simp
  | some i => by_cases hi : i.length ≤ p.sidMax <;> simp [hi]

/-- What an accepted frame does in HelloSent depends on none of the operands. -/
@[simp] theorem helloReply_withOperandsOf (b : Bytes) :
    helloReply p b (withOperandsOf o s) = withOperandsOf o (helloReply p b s) := by
  unfold helloReply
  cases decodeFrame p b with
  | err e => simp
  | ok pk => by_cases hty : pk.packetType = 0x04#8 <;> simp [hty]

/-- What an accepted frame does in a keepalive wait depends on none of the operands. -/
@[simp] theorem keepaliveReply_withOperandsOf (b : Bytes) :
    keepaliveReply p b (withOperandsOf o s) = withOperandsOf o (keepaliveReply p b s) := by
  unfold keepaliveReply
  cases decodeFrame p b with
  | err e => simp
  | ok pk => by_cases hty : pk.packetType = 0x05#8 <;> simp [hty]

/-- What an accepted frame does depends on none of the operands, in either wait (70_reset_and_hazards.md R182). -/
theorem acceptFrame_withOperandsOf (b : Bytes) :
    acceptFrame p b (withOperandsOf o s) = withOperandsOf o (acceptFrame p b s) := by
  by_cases hs : s.fsm = .helloSent <;> simp [acceptFrame, hs]

variable {s} in
/-- A read has its next state with any operands, and leaves them. -/
theorem receiveFrame_withOperandsOf {t : State} {b : Bytes} (h : receiveFrame p b s = .next t) :
    receiveFrame p b (withOperandsOf o s) = .next (withOperandsOf o t) := by
  obtain ⟨hb, rfl⟩ | ⟨hb, hl, rfl⟩ := receiveFrame_cases p b h
  · exact receiveFrame_not_busy p b hb
  · rw [receiveFrame_accepted p (s := withOperandsOf o s) hb hl, acceptFrame_withOperandsOf]

end

end Sys2Proof.Machine

/-!
# The obligations of 70_reset_and_hazards.md
-/

namespace Sys2Proof.Proofs

open Machine

/-- Settles O49: a packet is received, and what that does depends on none of the operands. -/
theorem laterOperandWriteDoesNotAffectACommand : Obligations.LaterOperandWriteDoesNotAffectACommand := by
  intro ty h pl s t a d b c clk nonce buf _ hnext
  rw [exec_frameRow] at hnext ⊢
  exact receiveFrame_withOperandsOf
    { s with opType := a, opStream := b, opSeq := c, opFlags := d, ibuf := buf, clkNow := clk, nonceIn := nonce }
    Config.params hnext

/-- Settles O6: the reset input is the next step, and it gives the reset values. -/
theorem resetInputFromAnyState : Obligations.ResetInputFromAnyState :=
  fun s rest hp => ⟨step_reset_head hp, readReg_status_resetCore (setPending rest s)⟩

end Sys2Proof.Proofs
